-- ==== Sys2Proof/Word.lean ====
section
/-! DEFINITION. The words the spec's rules speak of (00_scope.md R11): registers are 32 bits, a bus
transaction vector is 44 bits, a symbol word 8 bits, a sample 16 bits. -/

namespace Sys2Proof

/-- A host register word (R11: "Every register is 32 bits wide unless its rule says otherwise"). -/
abbrev Word := BitVec 32

/-- A word of S_SYM_IN or M_SYM_OUT (R86, R89), and a byte of the host software. -/
abbrev Byte := BitVec 8

/-- A 16-bit two's-complement sample (R14). -/
abbrev Sample := BitVec 16

/-- The 44-bit transaction vector of R81. -/
abbrev Tv := BitVec 44

end Sys2Proof
end

