-- ==== Sys2Proof/Syntax.lean ====
section
/-! DEFINITION. What the agents can do at the block's interfaces (30_encoding.md R80, R93) and the 49
operations of spec/opcode_table.json, in its order, one constructor per row (R95). -/

namespace Sys2Proof

/-- One line of an agent, as it arrives at the block: on the host bus, on one of the four ports, or the
block's own internal step. R80: "A decoder can tell the class and length of an operation from which
interface it arrives on". An input port's word is chosen at the moment of the transfer (R13); an output
port's word is produced by the block (R90), so those lines carry none. -/
inductive Offer where
  /-- A host bus transaction, as its 44-bit vector (R81). -/
  | bus (tv : Tv)
  /-- A word on S_SYM_IN (R86). -/
  | symIn (word : Byte)
  /-- The consumer of M_SMP_OUT takes a word (R87). -/
  | smpOut
  /-- A word on S_SMP_IN (R88). -/
  | smpIn (word : BitVec 17)
  /-- The consumer of M_SYM_OUT takes a word (R89). -/
  | symOut
  /-- The internal step of agent SYN (R9, R159). -/
  | internal
  deriving DecidableEq, Repr

/-- The operations of the block. In the bus-error rows `we`, `addr` and `wdata` are the fields of the
vector that the row leaves free; `word` is ADDR[8:2]. A read's WDATA is don't-care (R81) and is no
operand. -/
inductive Instr where
  | busErrorSz1 (we : Bool) (addr : BitVec 9) (wdata : Word)
  | busErrorSz2 (we : Bool) (addr : BitVec 9) (wdata : Word)
  | busErrorSzRsv (we : Bool) (addr : BitVec 9) (wdata : Word)
  | busErrorMisalign1 (we : Bool) (word : BitVec 7) (wdata : Word)
  | busErrorMisalign2 (we : Bool) (word : BitVec 7) (wdata : Word)
  | busErrorMisalign3 (we : Bool) (word : BitVec 7) (wdata : Word)
  | nop
  | start
  | stop
  | flush
  | cmdIllegal (w : Word)
  | rdId
  | wrRoId (wdata : Word)
  | rdVersion
  | wrRoVersion (wdata : Word)
  | rdFsHz
  | wrRoFsHz (wdata : Word)
  | rdCmd
  | rdCfg
  | wrCfg (wdata : Word)
  | rdSps
  | wrSps (wdata : Word)
  | rdSrcRate
  | wrSrcRate (wdata : Word)
  | rdStatus
  | wrRoStatus (wdata : Word)
  | rdEvents
  | wrEvents (wdata : Word)
  | rdIrqEn
  | wrIrqEn (wdata : Word)
  | rdErrInfo
  | wrRoErrInfo (wdata : Word)
  | rdSynSymCnt
  | wrRoSynSymCnt (wdata : Word)
  | rdDetWinCnt
  | wrRoDetWinCnt (wdata : Word)
  | rdDetDropCnt
  | wrRoDetDropCnt (wdata : Word)
  | rdDetFill
  | wrRoDetFill (wdata : Word)
  | rdTone (i : BitVec 6)
  | wrTone (i : BitVec 6) (wdata : Word)
  | rdReserved (word : BitVec 7)
  | wrReserved (word : BitVec 7) (wdata : Word)
  | symIn (v : Byte)
  | smpOut
  | smpIn (sample : Sample) (last : Bool)
  | symOut
  | synLoad
  deriving DecidableEq, Repr

/-- The row's mnemonic in spec/opcode_table.json, letter for letter. -/
def Instr.mnemonic : Instr → String
  | .busErrorSz1 .. => "BUS_ERROR_SZ1"
  | .busErrorSz2 .. => "BUS_ERROR_SZ2"
  | .busErrorSzRsv .. => "BUS_ERROR_SZRSV"
  | .busErrorMisalign1 .. => "BUS_ERROR_MISALIGN1"
  | .busErrorMisalign2 .. => "BUS_ERROR_MISALIGN2"
  | .busErrorMisalign3 .. => "BUS_ERROR_MISALIGN3"
  | .nop => "NOP"
  | .start => "START"
  | .stop => "STOP"
  | .flush => "FLUSH"
  | .cmdIllegal .. => "CMD_ILLEGAL"
  | .rdId => "RD_ID"
  | .wrRoId .. => "WR_RO_ID"
  | .rdVersion => "RD_VERSION"
  | .wrRoVersion .. => "WR_RO_VERSION"
  | .rdFsHz => "RD_FS_HZ"
  | .wrRoFsHz .. => "WR_RO_FS_HZ"
  | .rdCmd => "RD_CMD"
  | .rdCfg => "RD_CFG"
  | .wrCfg .. => "WR_CFG"
  | .rdSps => "RD_SPS"
  | .wrSps .. => "WR_SPS"
  | .rdSrcRate => "RD_SRC_RATE"
  | .wrSrcRate .. => "WR_SRC_RATE"
  | .rdStatus => "RD_STATUS"
  | .wrRoStatus .. => "WR_RO_STATUS"
  | .rdEvents => "RD_EVENTS"
  | .wrEvents .. => "WR_EVENTS"
  | .rdIrqEn => "RD_IRQ_EN"
  | .wrIrqEn .. => "WR_IRQ_EN"
  | .rdErrInfo => "RD_ERRINFO"
  | .wrRoErrInfo .. => "WR_RO_ERRINFO"
  | .rdSynSymCnt => "RD_SYN_SYMCNT"
  | .wrRoSynSymCnt .. => "WR_RO_SYN_SYMCNT"
  | .rdDetWinCnt => "RD_DET_WINCNT"
  | .wrRoDetWinCnt .. => "WR_RO_DET_WINCNT"
  | .rdDetDropCnt => "RD_DET_DROPCNT"
  | .wrRoDetDropCnt .. => "WR_RO_DET_DROPCNT"
  | .rdDetFill => "RD_DET_FILL"
  | .wrRoDetFill .. => "WR_RO_DET_FILL"
  | .rdTone .. => "RD_TONE"
  | .wrTone .. => "WR_TONE"
  | .rdReserved .. => "RD_RESERVED"
  | .wrReserved .. => "WR_RESERVED"
  | .symIn .. => "SYM_IN"
  | .smpOut => "SMP_OUT"
  | .smpIn .. => "SMP_IN"
  | .symOut => "SYM_OUT"
  | .synLoad => "SYN_LOAD"

end Sys2Proof
end

