-- ==== Sys2Proof/WellFormed.lean ====
section
/-! DEFINITION. Which operands an operation may carry: those that the encoding of its row admits
(30_encoding.md R83, R84, R95). Every operand's width is in its type; two rows leave something to
check. -/

namespace Sys2Proof

/-- CMD_ILLEGAL is a command word other than those of NOP, START, STOP and FLUSH (R85, R136); a
reserved offset lies in 0x03C..0x0FC, so its word index lies in 15..63 (R42, R83). -/
def wellFormed : Instr → Bool
  | .cmdIllegal w => decide (3 < w.toNat)
  | .rdReserved word => decide (15 ≤ word.toNat ∧ word.toNat < 64)
  | .wrReserved word _ => decide (15 ≤ word.toNat ∧ word.toNat < 64)
  | .busErrorSz1 .. | .busErrorSz2 .. | .busErrorSzRsv .. => true
  | .busErrorMisalign1 .. | .busErrorMisalign2 .. | .busErrorMisalign3 .. => true
  | .nop | .start | .stop | .flush => true
  | .rdId | .rdVersion | .rdFsHz | .rdCmd | .rdCfg | .rdSps | .rdSrcRate | .rdStatus => true
  | .rdEvents | .rdIrqEn | .rdErrInfo | .rdSynSymCnt | .rdDetWinCnt | .rdDetDropCnt => true
  | .rdDetFill | .rdTone .. => true
  | .wrRoId .. | .wrRoVersion .. | .wrRoFsHz .. | .wrRoStatus .. | .wrRoErrInfo .. => true
  | .wrRoSynSymCnt .. | .wrRoDetWinCnt .. | .wrRoDetDropCnt .. | .wrRoDetFill .. => true
  | .wrCfg .. | .wrSps .. | .wrSrcRate .. | .wrEvents .. | .wrIrqEn .. | .wrTone .. => true
  | .symIn .. | .smpOut | .smpIn .. | .symOut | .synLoad => true

/-- The operands are ones the row's encoding admits. -/
abbrev WellFormed (i : Instr) : Prop := wellFormed i = true

end Sys2Proof
end

