-- ==== Sys2Proof/Decode.lean ====
section
/-! DEFINITION. The decoder (30_encoding.md R83 to R90), total on every word of every interface, and
after it the encoder written from the same tables. -/

namespace Sys2Proof

/-! ### The fields of a transaction vector (R81) -/

/-- WE, bit [43]. -/
def Tv.we (tv : Tv) : Bool := tv.getLsbD 43

/-- SZ, bits [42:41]. -/
def Tv.sz (tv : Tv) : BitVec 2 := tv.extractLsb' 41 2

/-- ADDR, bits [40:32]. -/
def Tv.addr (tv : Tv) : BitVec 9 := tv.extractLsb' 32 9

/-- WDATA, bits [31:0]. -/
def Tv.wdata (tv : Tv) : Word := tv.extractLsb' 0 32

/-! ### Decoding -/

/-- The command word of a legal write to CMD (R84, R85, R130): MBZ not zero or OP above 3 is illegal. -/
def decodeCommand (w : Word) : Instr :=
  if w.extractLsb' 8 24 ≠ 0#24 ∨ 3 < (w.extractLsb' 0 8).toNat then .cmdIllegal w
  else match (w.extractLsb' 0 8).toNat with
    | 0 => .nop
    | 1 => .start
    | 2 => .stop
    | _ => .flush

/-- R83 steps 3 and 4: the 15 named offsets 0x000..0x038 by their word index ADDR[8:2], each with its
read and its write; every other word below 0x100 is reserved. -/
def decodeRegister (we : Bool) (word : BitVec 7) (wdata : Word) : Instr :=
  match word.toNat with
  | 0 => if we then .wrRoId wdata else .rdId
  | 1 => if we then .wrRoVersion wdata else .rdVersion
  | 2 => if we then .wrRoFsHz wdata else .rdFsHz
  | 3 => if we then decodeCommand wdata else .rdCmd
  | 4 => if we then .wrCfg wdata else .rdCfg
  | 5 => if we then .wrSps wdata else .rdSps
  | 6 => if we then .wrSrcRate wdata else .rdSrcRate
  | 7 => if we then .wrRoStatus wdata else .rdStatus
  | 8 => if we then .wrEvents wdata else .rdEvents
  | 9 => if we then .wrIrqEn wdata else .rdIrqEn
  | 10 => if we then .wrRoErrInfo wdata else .rdErrInfo
  | 11 => if we then .wrRoSynSymCnt wdata else .rdSynSymCnt
  | 12 => if we then .wrRoDetWinCnt wdata else .rdDetWinCnt
  | 13 => if we then .wrRoDetDropCnt wdata else .rdDetDropCnt
  | 14 => if we then .wrRoDetFill wdata else .rdDetFill
  | _ => if we then .wrReserved word wdata else .rdReserved word

/-- An aligned word access (R83 steps 2 to 4): ADDR[8] = 1 is TONE[ADDR[7:2]]. -/
def decodeAligned (we : Bool) (word : BitVec 7) (wdata : Word) : Instr :=
  if word.getLsbD 6 then
    if we then .wrTone (word.extractLsb' 0 6) wdata else .rdTone (word.extractLsb' 0 6)
  else decodeRegister we word wdata

/-- R83 on the fields of the vector: size first, then alignment, then the address. -/
def decodeFields (we : Bool) (sz : BitVec 2) (addr : BitVec 9) (wdata : Word) : Instr :=
  match sz.toNat with
  | 0 => .busErrorSz1 we addr wdata
  | 1 => .busErrorSz2 we addr wdata
  | 3 => .busErrorSzRsv we addr wdata
  | _ =>
    match (addr.extractLsb' 0 2).toNat with
    | 1 => .busErrorMisalign1 we (addr.extractLsb' 2 7) wdata
    | 2 => .busErrorMisalign2 we (addr.extractLsb' 2 7) wdata
    | 3 => .busErrorMisalign3 we (addr.extractLsb' 2 7) wdata
    | _ => decodeAligned we (addr.extractLsb' 2 7) wdata

/-- R83: "This decode is total: every 44-bit vector selects exactly one rule." -/
def decodeBus (tv : Tv) : Instr := decodeFields tv.we tv.sz tv.addr tv.wdata

/-- The decoder of the block: each interface has its own word format (R80, R86 to R90). -/
def decode : Offer → Instr
  | .bus tv => decodeBus tv
  | .symIn word => .symIn word
  | .smpOut => .smpOut
  | .smpIn word => .smpIn (word.extractLsb' 0 16) (word.getLsbD 16)
  | .symOut => .symOut
  | .internal => .synLoad

/-! ### Encoding -/

/-- The transaction vector of R81: WE, SZ, ADDR, WDATA from the most significant bit down. -/
def mkTv (we : Bool) (sz : BitVec 2) (addr : BitVec 9) (wdata : Word) : Tv :=
  BitVec.ofBool we ++ sz ++ addr ++ wdata

/-- `TV(we, addr)` of 40_bus_access.md: the aligned word access at byte offset `addr`. -/
def busWord (we : Bool) (addr : BitVec 9) (wdata : Word) : Offer := .bus (mkTv we 0b10#2 addr wdata)

/-- A read of the register at `addr`; its don't-care WDATA is written as 0 (R81, log 11). -/
def busRead (addr : BitVec 9) : Offer := busWord false addr 0#32

/-- The byte offset whose word index is `word` and whose ADDR[1:0] is `low`. -/
def offsetOf (word : BitVec 7) (low : BitVec 2) : BitVec 9 := word ++ low

/-- The byte offset 0x100 + 4*i of TONE[i] (R41). -/
def toneOffset (i : BitVec 6) : BitVec 9 := 1#1 ++ i ++ 0#2

/-- The line that stands for a (well-formed) operation. -/
def encode : Instr → Offer
  | .busErrorSz1 we addr wdata => .bus (mkTv we 0b00#2 addr wdata)
  | .busErrorSz2 we addr wdata => .bus (mkTv we 0b01#2 addr wdata)
  | .busErrorSzRsv we addr wdata => .bus (mkTv we 0b11#2 addr wdata)
  | .busErrorMisalign1 we word wdata => busWord we (offsetOf word 1#2) wdata
  | .busErrorMisalign2 we word wdata => busWord we (offsetOf word 2#2) wdata
  | .busErrorMisalign3 we word wdata => busWord we (offsetOf word 3#2) wdata
  | .nop => busWord true 0x00C#9 0x00000000#32
  | .start => busWord true 0x00C#9 0x00000001#32
  | .stop => busWord true 0x00C#9 0x00000002#32
  | .flush => busWord true 0x00C#9 0x00000003#32
  | .cmdIllegal w => busWord true 0x00C#9 w
  | .rdId => busRead 0x000#9
  | .wrRoId wdata => busWord true 0x000#9 wdata
  | .rdVersion => busRead 0x004#9
  | .wrRoVersion wdata => busWord true 0x004#9 wdata
  | .rdFsHz => busRead 0x008#9
  | .wrRoFsHz wdata => busWord true 0x008#9 wdata
  | .rdCmd => busRead 0x00C#9
  | .rdCfg => busRead 0x010#9
  | .wrCfg wdata => busWord true 0x010#9 wdata
  | .rdSps => busRead 0x014#9
  | .wrSps wdata => busWord true 0x014#9 wdata
  | .rdSrcRate => busRead 0x018#9
  | .wrSrcRate wdata => busWord true 0x018#9 wdata
  | .rdStatus => busRead 0x01C#9
  | .wrRoStatus wdata => busWord true 0x01C#9 wdata
  | .rdEvents => busRead 0x020#9
  | .wrEvents wdata => busWord true 0x020#9 wdata
  | .rdIrqEn => busRead 0x024#9
  | .wrIrqEn wdata => busWord true 0x024#9 wdata
  | .rdErrInfo => busRead 0x028#9
  | .wrRoErrInfo wdata => busWord true 0x028#9 wdata
  | .rdSynSymCnt => busRead 0x02C#9
  | .wrRoSynSymCnt wdata => busWord true 0x02C#9 wdata
  | .rdDetWinCnt => busRead 0x030#9
  | .wrRoDetWinCnt wdata => busWord true 0x030#9 wdata
  | .rdDetDropCnt => busRead 0x034#9
  | .wrRoDetDropCnt wdata => busWord true 0x034#9 wdata
  | .rdDetFill => busRead 0x038#9
  | .wrRoDetFill wdata => busWord true 0x038#9 wdata
  | .rdTone i => busRead (toneOffset i)
  | .wrTone i wdata => busWord true (toneOffset i) wdata
  | .rdReserved word => busRead (offsetOf word 0#2)
  | .wrReserved word wdata => busWord true (offsetOf word 0#2) wdata
  | .symIn v => .symIn v
  | .smpOut => .smpOut
  | .smpIn sample last => .smpIn (BitVec.ofBool last ++ sample)
  | .symOut => .symOut
  | .synLoad => .internal

/-! ### Words given with their width only -/

/-- Why a word given with its width only is no line of the block. -/
inductive DecodeError where
  /-- No interface of the block has words of this width (R80, R81, R86 to R89). -/
  | noInterface (nbits : Nat)
  /-- The word has a bit above its interface's format. -/
  | wordTooWide (nbits w : Nat)
  deriving DecidableEq, Repr

/-- The line of a word of `nbits` bits (the format's width, or that width in whole bytes): 44 bits are
a bus transaction, 8 bits an S_SYM_IN word, 17 bits an S_SMP_IN word, no bits the internal step. The
words of M_SMP_OUT and M_SYM_OUT have the widths of the input ports' and are "produced, not decoded"
(R90), so a width alone never means an output port (log 9). -/
def offerOfBits (nbits w : Nat) : Except DecodeError Offer :=
  match nbits with
  | 0 => if w = 0 then .ok .internal else .error (.wordTooWide 0 w)
  | 8 => if w < 2 ^ 8 then .ok (.symIn (BitVec.ofNat 8 w)) else .error (.wordTooWide 8 w)
  | 17 => if w < 2 ^ 17 then .ok (.smpIn (BitVec.ofNat 17 w)) else .error (.wordTooWide 17 w)
  | 24 => if w < 2 ^ 17 then .ok (.smpIn (BitVec.ofNat 17 w)) else .error (.wordTooWide 24 w)
  | 44 => if w < 2 ^ 44 then .ok (.bus (BitVec.ofNat 44 w)) else .error (.wordTooWide 44 w)
  | 48 => if w < 2 ^ 44 then .ok (.bus (BitVec.ofNat 44 w)) else .error (.wordTooWide 48 w)
  | n => .error (.noInterface n)

/-- The operation read from a row's word of `nbits` bits (R95), or none where no interface takes it. -/
def decodeTableWord (nbits w : Nat) : Option Instr :=
  match offerOfBits nbits w with
  | .ok o => some (decode o)
  | .error _ => none

end Sys2Proof
end

