-- ==== Sys2Proof/Config.lean ====
section
/-! DEFINITION. The block's constants and parameters (00_scope.md R6, 10_state.md R22, R27, R28). They
are not state: no rule changes one (R22, R263). -/

namespace Sys2Proof.Config

/-- Nominal sample rate FS_HZ (R6, R28). -/
def fsHz : Nat := 22050

/-- The identification word "TTCD" of register ID (R27). -/
def idWord : Word := 0x54544344#32

/-- Register VERSION: MAJOR 0, MINOR 1 (R27). -/
def versionWord : Word := 0x00000001#32

/-- The FIFO depths, the two model parameters of R6 (R22, I14, D16): an argument of the machine, which a
state carries and no operation changes (R263, log 8). -/
structure Depths where
  /-- D_SI, the depth of the symbol-input FIFO `si`. -/
  dSi : Nat
  /-- D_SO, the depth of the symbol-output FIFO `so`. -/
  dSo : Nat
  deriving DecidableEq, Repr

/-- The range of both depths, which the 5-bit level fields of STATUS bound (R6, D16). -/
abbrev Depths.Legal (d : Depths) : Prop := (1 ≤ d.dSi ∧ d.dSi ≤ 31) ∧ (1 ≤ d.dSo ∧ d.dSo ≤ 31)

/-- The depths of this hardware (R6). -/
def depths : Depths where
  dSi := 16
  dSo := 16

/-- Least legal BitsPerSymbol (R6). -/
def bpsMin : Nat := 1

/-- Greatest legal BitsPerSymbol (R6). -/
def bpsMax : Nat := 6

/-- Peak amplitude of SINE_ROM (R6, R150). -/
def amp : Int := 32767

/-- DESIGN CHOICE, log 14: HOST_ROUND (R220, R221, I21), the host's choice for a value that lies exactly
halfway between two integers: `true` rounds up. The spec leaves it open, so it has no body. -/
opaque hostHalfUp : Rat → Bool

/-- DESIGN CHOICE, log 14: the same choice in R223, for an exact half of v*32768. The spec does not state it and
HOST_ROUND does not cover it, so it is a free value of its own. -/
opaque sampleHalfUp : Rat → Bool

/-- DESIGN CHOICE, log 14: the case of a letter in the hex dump (R222), by its place in the text: `true` is a
capital. The spec states no case, so it is a free value. -/
opaque hexCapital : Nat → Bool

end Sys2Proof.Config
end

