-- ==== Sys2Proof/Machine/State.lean ====
section
/-! DEFINITION. The state of the block (10_state.md R20, R26), what the agents around it hold, and the
state after reset (R46). -/

namespace Sys2Proof.Machine

open Sys2Proof

/-- The seven sticky events of register EVENTS (R34). -/
inductive Event where
  | synIdle | detSym | detDrop | errSor | errCfg | errAccess | warnSrmm
  deriving DecidableEq, Repr

/-- The error causes recorded in ERRINFO.CODE (R233). Codes 9..15 are never produced. -/
inductive Cause where
  | none | cfgBps | cfgSps | cfgFtwRange | cfgFtwDup | sor | cmdIllegal | cmdState | lockedWrite
  deriving DecidableEq, Repr

/-- A register array of 64 like things: the tone table, the accumulator lanes (R20). -/
abbrev Lanes (α : Type) := Vector α 64

/-- The complete state of the block, exactly the tuple of R20 ("Nothing else is state"). -/
structure Block where
  /-- Session flag (R25). -/
  active : Bool
  /-- Tuning words TONE[0..63] (R41). -/
  tone : Lanes Word
  /-- BitsPerSymbol, CFG.BPS (R30). -/
  bps : BitVec 3
  /-- SamplesPerSymbol (R31). -/
  sps : BitVec 16
  /-- Declared rate of the audio source (R32). -/
  srcRate : Word
  /-- Symbol-input FIFO, head first (R26). -/
  si : List Byte
  /-- A tone is being emitted (R26). -/
  synBusy : Bool
  /-- The symbol of that tone (R26). -/
  synSym : BitVec 6
  /-- The index of the tone's next sample (R26). -/
  synN : BitVec 16
  /-- Halted by a SymbolOutOfRange error (R26). -/
  synHalt : Bool
  /-- Correlation accumulators (R26); DEDUCED, log 6: held as the exact integers, as R183 allows. -/
  acc : Lanes Int
  /-- Samples accepted in the current window (R26, R40). -/
  detFill : BitVec 16
  /-- Symbol-output FIFO, head first (R26). -/
  so : List (BitVec 6)
  /-- Sticky events (R34). -/
  events : BitVec 7
  /-- Interrupt enable mask (R35). -/
  irqEn : BitVec 7
  /-- ERRINFO.CODE (R36). -/
  errCode : BitVec 4
  /-- ERRINFO.INFO (R36). -/
  errInfo : BitVec 8
  /-- Tones completed (R37). -/
  symcnt : Word
  /-- Windows detected (R38). -/
  wincnt : Word
  /-- Samples discarded (R39). -/
  dropcnt : Word
  deriving DecidableEq, Repr

/-- The response of one bus transaction (20_memory.md R61). `rdata` is "meaningful only for reads", so
the response to a write carries none (log 5). -/
inductive BusResponse where
  /-- A read: err = 0 and the word read. -/
  | read (rdata : Word)
  /-- A write: err = 0. -/
  | written
  /-- A bus error: err = 1 and rdata = 0 (R62). -/
  | busError
  deriving DecidableEq, Repr

/-- The block and the agents around it. Only `blk` is the spec's state (R20); `depths` is the parameter of
the step relation that R22 keeps out of it (log 8), and the other fields are the model's own (log 1, 2, 4): the lines the agents still perform, in the order they are tried (R69, R93),
and what the agents have received so far, oldest first. -/
structure State where
  /-- The FIFO depths, a parameter and not state of the block (R6, R22). No operation changes it. -/
  depths : Config.Depths
  /-- The block (R20). -/
  blk : Block
  /-- The lines still to be performed (R93). DESIGN CHOICE, log 1. -/
  agenda : List Offer
  /-- An enabled SYN_LOAD goes before the next line (R10). DESIGN CHOICE, log 2. -/
  synFirst : Bool
  /-- Bus responses the host received (R61). DESIGN CHOICE, log 4. -/
  responses : List BusResponse
  /-- Words the consumer of M_SMP_OUT took (R87). DESIGN CHOICE, log 4. -/
  smpWords : List (BitVec 17)
  /-- Words the consumer of M_SYM_OUT took (R89). DESIGN CHOICE, log 4. -/
  symWords : List Byte
  deriving DecidableEq, Repr

/-- Nothing stops this machine: the spec describes no trap, no stuck processor and no undefined
operation. Its errors are records in the state after which the machine goes on (R231, R240), and a bus
error is a response (R235). So the type has no constructor, which says that no step faults (log 16). -/
inductive Fault where
  deriving DecidableEq, Repr

/-- Why an operation has no meaning. -/
inductive Refusal where
  /-- Raised by `exec`'s arm of an operation that has no meaning yet; no arm of this model raises it.
  Safe: the model stops. -/
  | notModelled (mnemonic : String)
  deriving DecidableEq, Repr

/-- R46, element by element. -/
def Block.reset : Block where
  active := false
  tone := Vector.replicate 64 0#32
  bps := 6#3
  sps := 110#16
  srcRate := 22050#32
  si := []
  synBusy := false
  synSym := 0#6
  synN := 0#16
  synHalt := false
  acc := Vector.replicate 64 0
  detFill := 0#16
  so := []
  events := 0#7
  irqEn := 0#7
  errCode := 0#4
  errInfo := 0#8
  symcnt := 0#32
  wincnt := 0#32
  dropcnt := 0#32

/-- The machine right after reset: this hardware's depths (R6), the block as R46 says, no line offered and nothing received (R261:
"After reset it does nothing until a bus transaction arrives"). DESIGN CHOICE, log 1, 2, 4: the values
of the model's own fields. -/
def State.reset : State where
  depths := Config.depths
  blk := Block.reset
  agenda := []
  synFirst := true
  responses := []
  smpWords := []
  symWords := []

end Sys2Proof.Machine
end

