-- ==== Sys2Proof/Machine/Operands.lean ====
section
/-! DEFINITION. Operand fields (30_encoding.md R90), the words the block produces (R87, R89), and reading
and tabulating the 64-entry register arrays. -/

namespace Sys2Proof.Machine

open Sys2Proof

/-! ### Fields of WDATA (R90) -/

/-- CFG.BPS = wdata[2:0]. -/
def bpsField (wdata : Word) : BitVec 3 := wdata.extractLsb' 0 3

/-- SPS = wdata[15:0]. -/
def spsField (wdata : Word) : BitVec 16 := wdata.extractLsb' 0 16

/-- IRQ_EN, and the W1C mask of EVENTS, = wdata[6:0]. -/
def eventField (wdata : Word) : BitVec 7 := wdata.extractLsb' 0 7

/-- OP of a command word = w[7:0]. -/
def opField (w : Word) : BitVec 8 := w.extractLsb' 0 8

/-- INFO of a locked write: the word index addr[8:2] (R126). -/
def wordIndex (addr : BitVec 9) : BitVec 8 := (addr.extractLsb' 2 7).zeroExtend 8

/-- sext_16 of a sample word (R11, R14, R90). -/
def sampleValue (x : Sample) : Int := x.toInt

/-! ### Words the block produces -/

/-- The M_SMP_OUT word: SYM_LAST at [16], trunc_16 of the sample at [15:0] (R87, R160). -/
def smpOutWord (x : Int) (symLast : Bool) : BitVec 17 := BitVec.ofBool symLast ++ BitVec.ofInt 16 x

/-- The M_SYM_OUT word: the symbol in [5:0], [7:6] zero (R89, R188). -/
def symOutWord (b : BitVec 6) : Byte := b.zeroExtend 8

/-! ### The register arrays (R20) -/

/-- Entry `s` of an array of 64; `d` beyond the array, which no rule reads. -/
def laneD {α : Type} (d : α) (v : Lanes α) (s : Nat) : α := if h : s < 64 then v[s] else d

/-- tone[s]. -/
def toneAt (b : Block) (s : Nat) : Word := laneD 0#32 b.tone s

/-- acc[s]. -/
def accAt (b : Block) (s : Nat) : Int := laneD 0 b.acc s

/-- The accumulators whose lane `s` is `f s`. -/
def accOf (f : Nat → Int) : Lanes Int := ⟨((List.range 64).map f).toArray, by simp⟩

/-- All accumulators 0: `for s in 0..63: acc[s] <- 0`. -/
def accZero : Lanes Int := Vector.replicate 64 0

/-- tone[i] <- w. -/
def setTone (t : Lanes Word) (i : BitVec 6) (w : Word) : Lanes Word := t.set i.toNat w i.isLt

/-- The alphabet size M = 2^BPS (R8). -/
def alphabet (b : Block) : Nat := 2 ^ b.bps.toNat

end Sys2Proof.Machine
end

