-- ==== Sys2Proof/Machine/Flags.lean ====
section
/-! DEFINITION. Events, causes, the interrupt line, the STATUS and ERRINFO words, and the ports' valid
and ready terms: every one a function of the state (10_state.md R33 to R36, 60_exceptions.md R233, R236,
42_synthesizer.md R157, 43_detector.md R184). -/

namespace Sys2Proof.Machine

open Sys2Proof

/-- The bit of EVENTS and of IRQ_EN that belongs to an event (R34, R35). -/
def Event.bit : Event → Nat
  | .synIdle => 0
  | .detSym => 1
  | .detDrop => 2
  | .errSor => 3
  | .errCfg => 4
  | .errAccess => 5
  | .warnSrmm => 6

/-- The 7-bit mask with just that bit. -/
def Event.mask (e : Event) : BitVec 7 := 1#7 <<< e.bit

/-- ERRINFO.CODE of a cause (R233). -/
def Cause.code : Cause → BitVec 4
  | .none => 0#4
  | .cfgBps => 1#4
  | .cfgSps => 2#4
  | .cfgFtwRange => 3#4
  | .cfgFtwDup => 4#4
  | .sor => 5#4
  | .cmdIllegal => 6#4
  | .cmdState => 7#4
  | .lockedWrite => 8#4

/-- irq = OR over i of (events[i] AND irq_en[i]) (R236). -/
def irq (b : Block) : Bool := (b.events &&& b.irqEn) != 0#7

/-- A Boolean as bit `i` of a word. -/
def flagAt (i : Nat) (f : Bool) : Word := (BitVec.ofBool f).zeroExtend 32 <<< i

/-- STATUS, computed from the state at the read (R33, R114). -/
def statusWord (b : Block) : Word :=
  flagAt 0 b.active ||| flagAt 1 b.synBusy ||| flagAt 2 b.synHalt ||| flagAt 3 (b.detFill != 0#16)
    ||| flagAt 4 (b.srcRate != 22050#32) ||| flagAt 5 (irq b)
    ||| (((BitVec.ofNat 5 b.si.length).zeroExtend 32) <<< 8)
    ||| (((BitVec.ofNat 5 b.so.length).zeroExtend 32) <<< 16)

/-- ERRINFO: INFO at [15:8], CODE at [3:0] (R36, R119). -/
def errInfoWord (b : Block) : Word :=
  (b.errInfo.zeroExtend 32 <<< 8) ||| b.errCode.zeroExtend 32

/-- S_SYM_IN.ready (R157). -/
def symInReady (d : Config.Depths) (b : Block) : Bool :=
  b.active && !b.synHalt && decide (b.si.length < d.dSi)

/-- M_SMP_OUT.valid (R157). -/
def smpOutValid (b : Block) : Bool := b.active && b.synBusy

/-- The enabling term of SYN_LOAD (R157, R159). -/
def synLoadEnabled (b : Block) : Bool :=
  b.active && !b.synHalt && !b.synBusy && decide (0 < b.si.length)

/-- S_SMP_IN.ready (R184). -/
def smpInReady (d : Config.Depths) (b : Block) : Bool := b.active && decide (b.so.length < d.dSo)

/-- M_SYM_OUT.valid (R184), whatever `active` is. -/
def symOutValid (b : Block) : Bool := decide (0 < b.so.length)

/-- Whether the step of an operation can occur (R10). A bus transaction always can (R93: "A bus line is
performed at once"). -/
def enabled (d : Config.Depths) (b : Block) : Instr → Bool
  | .symIn _ => symInReady d b
  | .smpOut => smpOutValid b
  | .smpIn _ _ => smpInReady d b
  | .symOut => symOutValid b
  | .synLoad => synLoadEnabled b
  | .busErrorSz1 .. | .busErrorSz2 .. | .busErrorSzRsv .. => true
  | .busErrorMisalign1 .. | .busErrorMisalign2 .. | .busErrorMisalign3 .. => true
  | .nop | .start | .stop | .flush | .cmdIllegal .. => true
  | .rdId | .rdVersion | .rdFsHz | .rdCmd | .rdCfg | .rdSps | .rdSrcRate | .rdStatus => true
  | .rdEvents | .rdIrqEn | .rdErrInfo | .rdSynSymCnt | .rdDetWinCnt | .rdDetDropCnt => true
  | .rdDetFill | .rdTone .. | .rdReserved .. | .wrReserved .. => true
  | .wrRoId .. | .wrRoVersion .. | .wrRoFsHz .. | .wrRoStatus .. | .wrRoErrInfo .. => true
  | .wrRoSynSymCnt .. | .wrRoDetWinCnt .. | .wrRoDetDropCnt .. | .wrRoDetFill .. => true
  | .wrCfg .. | .wrSps .. | .wrSrcRate .. | .wrEvents .. | .wrIrqEn .. | .wrTone .. => true

end Sys2Proof.Machine
end

