-- ==== Sys2Proof/Machine/Ops.lean ====
section
/-! DEFINITION. The named operations of the rules' pseudocode (00_scope.md R12): `signal` and `raise`, the
bus responses, FIFO pushes and pops, the refusal of a locked write, the configuration check, the discard
of a partial window and the decision over the lanes. -/

namespace Sys2Proof.Machine

open Sys2Proof

/-! ### Events and errors -/

/-- `signal E`: EVENTS.E <- 1, and nothing else (R231). -/
def signal (e : Event) (b : Block) : Block := { b with events := b.events ||| e.mask }

/-- `raise E(code, info)`: taking an error, the one shared operation (R231, R240). The EVENTS bit is set
and ERRINFO overwritten in the step of the raising rule; no control transfers and nothing is saved. -/
def raise (e : Event) (c : Cause) (info : BitVec 8) (b : Block) : Block :=
  { b with events := b.events ||| e.mask, errCode := c.code, errInfo := info }

/-- The host's way out of an error: W1C on EVENTS (R116, R237, R241). There is no return-from-trap
operation. ERRINFO stays. -/
def clearEvents (mask : BitVec 7) (b : Block) : Block := { b with events := b.events &&& ~~~mask }

/-- The refusal of a write to CFG, SPS, SRC_RATE or TONE while a session is active (R126). -/
def lockedWrite (addr : BitVec 9) (b : Block) : Block :=
  raise .errAccess .lockedWrite (wordIndex addr) b

/-- A write to a register that the session locks (R23: RWL). -/
def writeRwl (addr : BitVec 9) (store : Block → Block) (b : Block) : Block :=
  if b.active then lockedWrite addr b else store b

/-! ### Bus steps -/

/-- The step of a legal read: the response carries the register's word; nothing else changes (R66, R67). -/
def readReply (rdata : Word) (s : State) : Host.Outcome State Fault Refusal :=
  .next { s with responses := s.responses ++ [.read rdata] }

/-- The step of a legal write: the block changes as the register's rule says (R66). -/
def writeReply (effect : Block → Block) (s : State) : Host.Outcome State Fault Refusal :=
  .next { s with blk := effect s.blk, responses := s.responses ++ [.written] }

/-- The step of a malformed transaction: err = 1, rdata = 0, no state change (R62, R100, R235). -/
def errorReply (s : State) : Host.Outcome State Fault Refusal :=
  .next { s with responses := s.responses ++ [.busError] }

/-! ### The configuration check (R132) -/

/-- A tuning word that is 0 or at or above Nyquist. -/
def ftwOutOfRange (w : Word) : Bool := w == 0#32 || decide (2 ^ 31 ≤ w.toNat)

/-- The lowest active index whose tuning word is out of range. -/
def firstBadFtw (b : Block) : Option Nat :=
  (List.range (alphabet b)).find? fun s => ftwOutOfRange (toneAt b s)

/-- The lowest active index that repeats an earlier entry. -/
def firstDupFtw (b : Block) : Option Nat :=
  (List.range (alphabet b)).find? fun t => (List.range t).any fun s => toneAt b s == toneAt b t

/-- validate_config(): none is (true, 0, 0); otherwise the cause and INFO of the first failure. -/
def validateConfig (b : Block) : Option (Cause × BitVec 8) :=
  if b.bps.toNat < Config.bpsMin ∨ Config.bpsMax < b.bps.toNat then
    some (.cfgBps, b.bps.zeroExtend 8)
  else if b.sps = 0#16 then some (.cfgSps, 0#8)
  else match firstBadFtw b with
    | some s => some (.cfgFtwRange, BitVec.ofNat 8 s)
    | none =>
      match firstDupFtw b with
      | some t => some (.cfgFtwDup, BitVec.ofNat 8 t)
      | none => none

/-! ### The detector's shared operations -/

/-- The accumulators and the window position at a window boundary (R186, R187). -/
def clearWindow (b : Block) : Block := { b with acc := accZero, detFill := 0#16 }

/-- The discard of a partial window: partial_discard() (R187), also performed by FLUSH and STOP (R134,
R135). -/
def discardPartial (b : Block) : Block :=
  clearWindow (signal .detDrop { b with dropcnt := b.dropcnt + b.detFill.zeroExtend 32 })

/-- argmax_lowest(acc, M) (R182): the comparison is strict, so the lowest index wins a tie. -/
def argmaxLowest (acc : Nat → Int) (m : Nat) : Nat :=
  (List.range' 1 (m - 1)).foldl (fun best s => if acc best < acc s then s else best) 0

/-- window_complete() (R186). -/
def windowComplete (b : Block) : Block :=
  clearWindow (signal .detSym
    { b with so := b.so ++ [BitVec.ofNat 6 (argmaxLowest (accAt b) (alphabet b))]
             wincnt := b.wincnt + 1#32 })

/-- The multiply-accumulate of every active lane at window position n = det_fill, and the position's
advance (R185, R197). -/
def accumulate (x : Int) (b : Block) : Block :=
  { b with acc := accOf fun s =>
             if s < alphabet b then accAt b s + x * wave (toneAt b s) b.detFill.toNat else accAt b s
           detFill := b.detFill + 1#16 }

/-! ### The synthesizer's shared operations -/

/-- The synthesizer's tone state while no tone is being emitted (R26, R131, R134, R160). -/
def clearTone (b : Block) : Block := { b with synBusy := false, synSym := 0#6, synN := 0#16 }

/-- syn_idle_check() (R161). -/
def synIdleCheck (b : Block) : Block := if b.si = [] then signal .synIdle b else b

/-- The next sample is the last of its tone: n = sps - 1 (R160). -/
def atLastSample (b : Block) : Bool := decide (b.synN.toNat + 1 = b.sps.toNat)

/-- The word the next M_SMP_OUT transfer carries (R160). -/
def smpOutNow (b : Block) : BitVec 17 :=
  smpOutWord (wave (toneAt b b.synSym.toNat) b.synN.toNat) (atLastSample b)

end Sys2Proof.Machine
end

