-- ==== Sys2Proof/Machine/BusErrors.lean ====
section
/-! DEFINITION. The malformed transactions (40_bus_access.md R100, 20_memory.md R62): six rows, one rule.
Nothing but the response depends on the other fields of the vector. -/

namespace Sys2Proof.Machine

open Sys2Proof

/-- BUS_ERROR_SZ1: a 1-byte access (R100). -/
def execBusErrorSz1 (s : State) : Host.Outcome State Fault Refusal := errorReply s

/-- BUS_ERROR_SZ2: a 2-byte access (R100). -/
def execBusErrorSz2 (s : State) : Host.Outcome State Fault Refusal := errorReply s

/-- BUS_ERROR_SZRSV: the reserved size code (R82, R100). -/
def execBusErrorSzRsv (s : State) : Host.Outcome State Fault Refusal := errorReply s

/-- BUS_ERROR_MISALIGN1: a word access with ADDR[1:0] = 1 (R100). -/
def execBusErrorMisalign1 (s : State) : Host.Outcome State Fault Refusal := errorReply s

/-- BUS_ERROR_MISALIGN2: a word access with ADDR[1:0] = 2 (R100). -/
def execBusErrorMisalign2 (s : State) : Host.Outcome State Fault Refusal := errorReply s

/-- BUS_ERROR_MISALIGN3: a word access with ADDR[1:0] = 3 (R100). -/
def execBusErrorMisalign3 (s : State) : Host.Outcome State Fault Refusal := errorReply s

end Sys2Proof.Machine
end

