-- ==== Sys2Proof/Machine/BusReads.lean ====
section
/-! DEFINITION. The legal reads of the register space (40_bus_access.md R101 to R124): each answers one
word and changes nothing (20_memory.md R67). -/

namespace Sys2Proof.Machine

open Sys2Proof

/-- RD_ID (R102). -/
def execRdId (s : State) : Host.Outcome State Fault Refusal :=
  readReply Config.idWord s

/-- RD_VERSION (R103). -/
def execRdVersion (s : State) : Host.Outcome State Fault Refusal :=
  readReply Config.versionWord s

/-- RD_FS_HZ (R104). -/
def execRdFsHz (s : State) : Host.Outcome State Fault Refusal :=
  readReply (BitVec.ofNat 32 Config.fsHz) s

/-- RD_CMD, which executes no command (R107). -/
def execRdCmd (s : State) : Host.Outcome State Fault Refusal :=
  readReply 0#32 s

/-- RD_CFG (R108). -/
def execRdCfg (s : State) : Host.Outcome State Fault Refusal :=
  readReply (s.blk.bps.zeroExtend 32) s

/-- RD_SPS (R110). -/
def execRdSps (s : State) : Host.Outcome State Fault Refusal :=
  readReply (s.blk.sps.zeroExtend 32) s

/-- RD_SRC_RATE (R112). -/
def execRdSrcRate (s : State) : Host.Outcome State Fault Refusal :=
  readReply s.blk.srcRate s

/-- RD_STATUS (R114). -/
def execRdStatus (s : State) : Host.Outcome State Fault Refusal :=
  readReply (statusWord s.blk) s

/-- RD_EVENTS, which clears nothing (R115). -/
def execRdEvents (s : State) : Host.Outcome State Fault Refusal :=
  readReply (s.blk.events.zeroExtend 32) s

/-- RD_IRQ_EN (R117). -/
def execRdIrqEn (s : State) : Host.Outcome State Fault Refusal :=
  readReply (s.blk.irqEn.zeroExtend 32) s

/-- RD_ERRINFO (R119). -/
def execRdErrInfo (s : State) : Host.Outcome State Fault Refusal :=
  readReply (errInfoWord s.blk) s

/-- RD_SYN_SYMCNT (R120). -/
def execRdSynSymCnt (s : State) : Host.Outcome State Fault Refusal :=
  readReply s.blk.symcnt s

/-- RD_DET_WINCNT (R121). -/
def execRdDetWinCnt (s : State) : Host.Outcome State Fault Refusal :=
  readReply s.blk.wincnt s

/-- RD_DET_DROPCNT (R122). -/
def execRdDetDropCnt (s : State) : Host.Outcome State Fault Refusal :=
  readReply s.blk.dropcnt s

/-- RD_DET_FILL (R123). -/
def execRdDetFill (s : State) : Host.Outcome State Fault Refusal :=
  readReply (s.blk.detFill.zeroExtend 32) s

/-- RD_TONE: tone[i], also during a session (R124). -/
def execRdTone (i : BitVec 6) (s : State) : Host.Outcome State Fault Refusal :=
  readReply (toneAt s.blk i.toNat) s

/-- RD_RESERVED: a reserved offset reads as 0 (R42, R101). -/
def execRdReserved (s : State) : Host.Outcome State Fault Refusal :=
  readReply 0#32 s

end Sys2Proof.Machine
end

