-- ==== Sys2Proof/Machine/BusWrites.lean ====
section
/-! DEFINITION. The legal writes of the register space other than CMD (40_bus_access.md R101, R105, R109
to R118, R125, R126). -/

namespace Sys2Proof.Machine

open Sys2Proof

/-! ### Ignored writes -/

/-- WR_RO_ID: ignored, no event (R105). -/
def execWrRoId (s : State) : Host.Outcome State Fault Refusal :=
  writeReply id s

/-- WR_RO_VERSION: ignored, no event (R105). -/
def execWrRoVersion (s : State) : Host.Outcome State Fault Refusal :=
  writeReply id s

/-- WR_RO_FS_HZ: ignored, no event (R105). -/
def execWrRoFsHz (s : State) : Host.Outcome State Fault Refusal :=
  writeReply id s

/-- WR_RO_STATUS: ignored, no event (R105). -/
def execWrRoStatus (s : State) : Host.Outcome State Fault Refusal :=
  writeReply id s

/-- WR_RO_ERRINFO: ignored, no event (R105). -/
def execWrRoErrInfo (s : State) : Host.Outcome State Fault Refusal :=
  writeReply id s

/-- WR_RO_SYN_SYMCNT: ignored, no event (R105). -/
def execWrRoSynSymCnt (s : State) : Host.Outcome State Fault Refusal :=
  writeReply id s

/-- WR_RO_DET_WINCNT: ignored, no event (R105). -/
def execWrRoDetWinCnt (s : State) : Host.Outcome State Fault Refusal :=
  writeReply id s

/-- WR_RO_DET_DROPCNT: ignored, no event (R105). -/
def execWrRoDetDropCnt (s : State) : Host.Outcome State Fault Refusal :=
  writeReply id s

/-- WR_RO_DET_FILL: ignored, no event (R105). -/
def execWrRoDetFill (s : State) : Host.Outcome State Fault Refusal :=
  writeReply id s

/-- WR_RESERVED: ignored, no event, in a session too (R42, R101). -/
def execWrReserved (s : State) : Host.Outcome State Fault Refusal :=
  writeReply id s

/-! ### Configuration, locked during a session -/

/-- WR_CFG: bps <- wdata[2:0], with no range check (R109). -/
def execWrCfg (wdata : Word) (s : State) : Host.Outcome State Fault Refusal :=
  writeReply (writeRwl 0x010#9 fun b => { b with bps := bpsField wdata }) s

/-- WR_SPS: sps <- wdata[15:0], with no range check (R111). -/
def execWrSps (wdata : Word) (s : State) : Host.Outcome State Fault Refusal :=
  writeReply (writeRwl 0x014#9 fun b => { b with sps := spsField wdata }) s

/-- WR_SRC_RATE: src_rate <- wdata; the mismatch itself raises no event here (R113). -/
def execWrSrcRate (wdata : Word) (s : State) : Host.Outcome State Fault Refusal :=
  writeReply (writeRwl 0x018#9 fun b => { b with srcRate := wdata }) s

/-- WR_TONE: tone[i] <- wdata, with no range or distinctness check (R125). -/
def execWrTone (i : BitVec 6) (wdata : Word) (s : State) : Host.Outcome State Fault Refusal :=
  writeReply (writeRwl (toneOffset i) fun b => { b with tone := setTone b.tone i wdata }) s

/-! ### Events and interrupt enable, writable in every state -/

/-- WR_EVENTS: write one to clear (R116). -/
def execWrEvents (wdata : Word) (s : State) : Host.Outcome State Fault Refusal :=
  writeReply (clearEvents (eventField wdata)) s

/-- WR_IRQ_EN: irq_en <- wdata[6:0] (R118). -/
def execWrIrqEn (wdata : Word) (s : State) : Host.Outcome State Fault Refusal :=
  writeReply (fun b => { b with irqEn := eventField wdata }) s

end Sys2Proof.Machine
end

