-- ==== Sys2Proof/Machine/Commands.lean ====
section
/-! DEFINITION. The commands (41_commands.md R130 to R137): each is the whole effect of one write to CMD,
in that write's step (40_bus_access.md R106). -/

namespace Sys2Proof.Machine

open Sys2Proof

/-- START once its checks have passed (R131): a session begins from a known state; EVENTS, ERRINFO,
IRQ_EN and the configuration stay. -/
def startSession (b : Block) : Block :=
  let fresh := clearWindow (clearTone
    { b with active := true, si := [], so := [], synHalt := false
             symcnt := 0#32, wincnt := 0#32, dropcnt := 0#32 })
  if b.srcRate = 22050#32 then fresh else signal .warnSrmm fresh

/-- START (R131, R132, R133): state first, then the configuration, then the session. -/
def startBlock (b : Block) : Block :=
  if b.active then raise .errAccess .cmdState 0x01#8 b
  else match validateConfig b with
    | some (cause, info) => raise .errCfg cause info b
    | none => startSession b

/-- STOP (R134): a partial window is discarded, then the detector is at a boundary; `so`, the counters
symcnt and wincnt, EVENTS, ERRINFO, IRQ_EN and the configuration stay. -/
def stopBlock (b : Block) : Block :=
  let idle := clearTone { b with active := false, si := [], synHalt := false }
  clearWindow (if b.detFill = 0#16 then idle else discardPartial idle)

/-- FLUSH (R135). -/
def flushBlock (b : Block) : Block :=
  if b.active ∧ b.detFill ≠ 0#16 then discardPartial b else b

/-- NOP (R137). -/
def execNop (s : State) : Host.Outcome State Fault Refusal := writeReply id s

/-- START (R131 to R133). -/
def execStart (s : State) : Host.Outcome State Fault Refusal := writeReply startBlock s

/-- STOP (R134), legal in every state. -/
def execStop (s : State) : Host.Outcome State Fault Refusal := writeReply stopBlock s

/-- FLUSH (R135), legal in every state. -/
def execFlush (s : State) : Host.Outcome State Fault Refusal := writeReply flushBlock s

/-- CMD_ILLEGAL: no effect but ERR_ACCESS cause 6 with the low byte of the word (R136). -/
def execCmdIllegal (w : Word) (s : State) : Host.Outcome State Fault Refusal :=
  writeReply (raise .errAccess .cmdIllegal (opField w)) s

end Sys2Proof.Machine
end

