-- ==== Sys2Proof/Machine/Detector.lean ====
section
/-! DEFINITION. The detector's steps (43_detector.md R184 to R188). A step whose enabling term does not
hold does not occur: the agent waits and nothing changes (00_scope.md R10). -/

namespace Sys2Proof.Machine

open Sys2Proof

/-- SMP_IN: every active lane accumulates, then the window completes, or a LAST mark discards it (R185 to
R187). -/
def smpInBlock (sample : Sample) (last : Bool) (b : Block) : Block :=
  let b' := accumulate (sampleValue sample) b
  if b'.detFill = b'.sps then windowComplete b'
  else if last then discardPartial b'
  else b'

/-- SMP_IN (R185). -/
def execSmpIn (sample : Sample) (last : Bool) (s : State) : Host.Outcome State Fault Refusal :=
  .next (if smpInReady s.depths s.blk then { s with blk := smpInBlock sample last s.blk } else s)

/-- SYM_OUT: the consumer takes the oldest symbol, whatever `active` is (R188). -/
def execSymOut (s : State) : Host.Outcome State Fault Refusal :=
  match s.blk.so with
  | [] => .next s
  | b :: rest =>
    .next { s with blk := { s.blk with so := rest }, symWords := s.symWords ++ [symOutWord b] }

end Sys2Proof.Machine
end

