-- ==== Sys2Proof/Machine/Synthesizer.lean ====
section
/-! DEFINITION. The synthesizer's steps (42_synthesizer.md R157 to R161). A step whose enabling term does
not hold does not occur: the agent waits and nothing changes (00_scope.md R10). -/

namespace Sys2Proof.Machine

open Sys2Proof

/-- SYM_IN: push the symbol, whatever its value (R158). -/
def symInBlock (v : Byte) (b : Block) : Block := { b with si := b.si ++ [v] }

/-- SYN_LOAD with symbol `v` at the head of `si` and `rest` behind it: the range check in stream order,
against M = 2^bps (R159). -/
def synLoadHead (v : Byte) (rest : List Byte) (b : Block) : Block :=
  if alphabet b ≤ v.toNat then
    raise .errSor .sor v { b with si := rest, synHalt := true }
  else { b with si := rest, synSym := v.truncate 6, synN := 0#16, synBusy := true }

/-- SYN_LOAD (R159). -/
def synLoadBlock (b : Block) : Block :=
  match b.si with
  | [] => b
  | v :: rest => synLoadHead v rest b

/-- The block after an M_SMP_OUT transfer: the tone ends at its last sample, else the index advances
(R160, R161). -/
def smpOutBlock (b : Block) : Block :=
  if atLastSample b then synIdleCheck (clearTone { b with symcnt := b.symcnt + 1#32 })
  else { b with synN := b.synN + 1#16 }

/-- SYM_IN (R158). -/
def execSymIn (v : Byte) (s : State) : Host.Outcome State Fault Refusal :=
  .next (if symInReady s.depths s.blk then { s with blk := symInBlock v s.blk } else s)

/-- SMP_OUT: the consumer takes the word (R160). -/
def execSmpOut (s : State) : Host.Outcome State Fault Refusal :=
  .next (if smpOutValid s.blk then
      { s with blk := smpOutBlock s.blk, smpWords := s.smpWords ++ [smpOutNow s.blk] }
    else s)

/-- SYN_LOAD (R159). -/
def execSynLoad (s : State) : Host.Outcome State Fault Refusal :=
  .next (if synLoadEnabled s.blk then { s with blk := synLoadBlock s.blk } else s)

end Sys2Proof.Machine
end

