-- ==== Sys2Proof/Machine/Dispatch.lean ====
section
/-! DEFINITION. One arm per operation of spec/opcode_table.json, in its order. -/

namespace Sys2Proof.Machine

def exec (i : Instr) (s : State) : Host.Outcome State Fault Refusal :=
  match i with
  | .busErrorSz1 _ _ _ => Sys2Proof.Machine.execBusErrorSz1 s
  | .busErrorSz2 _ _ _ => Sys2Proof.Machine.execBusErrorSz2 s
  | .busErrorSzRsv _ _ _ => Sys2Proof.Machine.execBusErrorSzRsv s
  | .busErrorMisalign1 _ _ _ => Sys2Proof.Machine.execBusErrorMisalign1 s
  | .busErrorMisalign2 _ _ _ => Sys2Proof.Machine.execBusErrorMisalign2 s
  | .busErrorMisalign3 _ _ _ => Sys2Proof.Machine.execBusErrorMisalign3 s
  | .nop => Sys2Proof.Machine.execNop s
  | .start => Sys2Proof.Machine.execStart s
  | .stop => Sys2Proof.Machine.execStop s
  | .flush => Sys2Proof.Machine.execFlush s
  | .cmdIllegal w => Sys2Proof.Machine.execCmdIllegal w s
  | .rdId => Sys2Proof.Machine.execRdId s
  | .wrRoId _ => Sys2Proof.Machine.execWrRoId s
  | .rdVersion => Sys2Proof.Machine.execRdVersion s
  | .wrRoVersion _ => Sys2Proof.Machine.execWrRoVersion s
  | .rdFsHz => Sys2Proof.Machine.execRdFsHz s
  | .wrRoFsHz _ => Sys2Proof.Machine.execWrRoFsHz s
  | .rdCmd => Sys2Proof.Machine.execRdCmd s
  | .rdCfg => Sys2Proof.Machine.execRdCfg s
  | .wrCfg wdata => Sys2Proof.Machine.execWrCfg wdata s
  | .rdSps => Sys2Proof.Machine.execRdSps s
  | .wrSps wdata => Sys2Proof.Machine.execWrSps wdata s
  | .rdSrcRate => Sys2Proof.Machine.execRdSrcRate s
  | .wrSrcRate wdata => Sys2Proof.Machine.execWrSrcRate wdata s
  | .rdStatus => Sys2Proof.Machine.execRdStatus s
  | .wrRoStatus _ => Sys2Proof.Machine.execWrRoStatus s
  | .rdEvents => Sys2Proof.Machine.execRdEvents s
  | .wrEvents wdata => Sys2Proof.Machine.execWrEvents wdata s
  | .rdIrqEn => Sys2Proof.Machine.execRdIrqEn s
  | .wrIrqEn wdata => Sys2Proof.Machine.execWrIrqEn wdata s
  | .rdErrInfo => Sys2Proof.Machine.execRdErrInfo s
  | .wrRoErrInfo _ => Sys2Proof.Machine.execWrRoErrInfo s
  | .rdSynSymCnt => Sys2Proof.Machine.execRdSynSymCnt s
  | .wrRoSynSymCnt _ => Sys2Proof.Machine.execWrRoSynSymCnt s
  | .rdDetWinCnt => Sys2Proof.Machine.execRdDetWinCnt s
  | .wrRoDetWinCnt _ => Sys2Proof.Machine.execWrRoDetWinCnt s
  | .rdDetDropCnt => Sys2Proof.Machine.execRdDetDropCnt s
  | .wrRoDetDropCnt _ => Sys2Proof.Machine.execWrRoDetDropCnt s
  | .rdDetFill => Sys2Proof.Machine.execRdDetFill s
  | .wrRoDetFill _ => Sys2Proof.Machine.execWrRoDetFill s
  | .rdTone k => Sys2Proof.Machine.execRdTone k s
  | .wrTone k wdata => Sys2Proof.Machine.execWrTone k wdata s
  | .rdReserved _ => Sys2Proof.Machine.execRdReserved s
  | .wrReserved _ _ => Sys2Proof.Machine.execWrReserved s
  | .symIn v => Sys2Proof.Machine.execSymIn v s
  | .smpOut => Sys2Proof.Machine.execSmpOut s
  | .smpIn sample last => Sys2Proof.Machine.execSmpIn sample last s
  | .symOut => Sys2Proof.Machine.execSymOut s
  | .synLoad => Sys2Proof.Machine.execSynLoad s

end Sys2Proof.Machine
end

