-- ==== Sys2Proof/Machine/Step.lean ====
section
/-! DEFINITION. One step of the machine: which agent moves (00_scope.md R9, R10; 20_memory.md R69) and the
line it performs (30_encoding.md R93). -/

namespace Sys2Proof.Machine

open Sys2Proof

/-- The step that performs the next line. A line that is not enabled waits at the head of the agenda and
the block's internal step is taken meanwhile, if it is enabled (R93); with no line left only the internal
step can move (R282). `exec .synLoad` changes nothing where SYN_LOAD is not enabled (log 3). -/
def stepLine (s : State) : Host.Outcome State Fault Refusal :=
  match s.agenda with
  | [] => exec .synLoad s
  | o :: rest =>
    if enabled s.depths s.blk (decode o) then exec (decode o) { s with agenda := rest }
    else exec .synLoad s

/-- One step. DESIGN CHOICE, log 2: where SYN_LOAD and the next line are both enabled, `synFirst` says
which moves (R10: "Any order of enabled steps is a legal execution"). -/
def step (s : State) : Host.Outcome State Fault Refusal :=
  if s.synFirst && synLoadEnabled s.blk then exec .synLoad s else stepLine s

/-- The operation of a row's word of `nbits` bits put at the head of the agenda, with the line moving
before SYN_LOAD, so that the very next step performs it. A word that no interface takes changes nothing
(log 1, log 9). -/
def State.withFetchWord (s : State) (nbits w : Nat) : State :=
  match offerOfBits nbits w with
  | .ok o => { s with agenda := o :: s.agenda, synFirst := false }
  | .error _ => s

end Sys2Proof.Machine
end

