-- ==== Sys2Proof/Machine/HostReference.lean ====
section
/-! DEFINITION. The host software around the block (44_host_reference.md R210 to R224) as pure functions.
It is outside the block (00_scope.md R5): no step of the machine calls anything here (log 14). -/

namespace Sys2Proof.Machine

open Sys2Proof

/-! ### Frame codec (R210 to R212) -/

/-- How the frame codec fails. -/
inductive FrameError where
  | metadataTooLarge | truncatedHeader | truncatedMetadata
  deriving DecidableEq, Repr

/-- encode_frame: a big-endian 16-bit length, the metadata, the payload (R210, R211). -/
def encodeFrame (metadata payload : List Byte) : Except FrameError (List Byte) :=
  if 65535 < metadata.length then .error .metadataTooLarge
  else .ok (BitVec.ofNat 8 (metadata.length / 256) :: BitVec.ofNat 8 (metadata.length % 256)
    :: (metadata ++ payload))

/-- decode_frame: the payload is everything after the metadata (R212). -/
def decodeFrame : List Byte → Except FrameError (List Byte × List Byte)
  | hi :: lo :: body =>
    let size := hi.toNat * 256 + lo.toNat
    if body.length < size then .error .truncatedMetadata
    else .ok (body.take size, body.drop size)
  | _ => .error .truncatedHeader

/-! ### Bit packer (R213 to R216) -/

/-- bytes_to_bits: most significant bit first, in byte order (R213). -/
def bytesToBits (data : List Byte) : List Bool :=
  data.flatMap fun b => (List.range 8).map fun i => b.getLsbD (7 - i)

/-- Consecutive groups of `k` bits; "a final short group is right-padded with zero bits" (R214, R216). -/
def groupsOf (k : Nat) (bits : List Bool) : List (List Bool) :=
  (List.range ((bits.length + k - 1) / k)).map fun i =>
    let group := (bits.drop (k * i)).take k
    group ++ List.replicate (k - group.length) false

/-- A group read as a big-endian unsigned integer (R214). -/
def bitsValue (group : List Bool) : Nat := group.foldl (fun v bit => 2 * v + bit.toNat) 0

/-- bits_to_symbols (R214). -/
def bitsToSymbols (bits : List Bool) (k : Nat) : List Nat := (groupsOf k bits).map bitsValue

/-- symbols_to_bits: exactly `k` bits a symbol, most significant first (R215). -/
def symbolsToBits (symbols : List Nat) (k : Nat) : List Bool :=
  symbols.flatMap fun s => (List.range k).map fun i => s.testBit (k - 1 - i)

/-- bits_to_bytes (R216). -/
def bitsToBytes (bits : List Bool) : List Byte :=
  (groupsOf 8 bits).map fun group => BitVec.ofNat 8 (bitsValue group)

/-! ### Rounding and scaling on the host (R220, R221, R223, R224)

DESIGN CHOICE, log 19: the spec states no format for the host's numbers. Durations, frequencies and floats are
exact rationals here, and no product or quotient below is rounded to a float. -/

/-- Rounding to the nearest integer. Which of the two neighbours an exact half goes to is the caller's
rule: `halfUp` of the value, where `true` rounds up. -/
def roundNearest (halfUp : Rat → Bool) (q : Rat) : Int :=
  if q - q.floor < 1 / 2 then q.floor
  else if 1 / 2 < q - q.floor then q.floor + 1
  else if halfUp q then q.floor + 1 else q.floor

/-- The rounding of R220 and R221. An exact half is HOST_ROUND, which the spec leaves open (I21). -/
def hostRound : Rat → Int := roundNearest Config.hostHalfUp

/-- SPS = round(FS_HZ * SymbolDuration), the duration in seconds (R220). The product is exact (log 19). -/
def spsOfDuration (duration : Rat) : Int := hostRound (Config.fsHz * duration)

/-- tone = round(f * 2^32 / 22050), the frequency in Hz (R221). The quotient is exact (log 19). -/
def tuningWord (f : Rat) : Int := hostRound (f * 2 ^ 32 / Config.fsHz)

/-- A float sample in [-1, 1] as a detector sample (R223). How an exact half of v*32768 rounds is stated
nowhere, and HOST_ROUND covers R220 and R221 only: a free value of its own, DESIGN CHOICE, log 14.
The product is exact (log 19). -/
def sampleOfFloat (v : Rat) : Int :=
  max (-32768) (min 32767 (roundNearest Config.sampleHalfUp (v * 32768)))

/-- A synthesizer sample as a float (R223). The quotient is exact (log 19). -/
def floatOfSample (x : Int) : Rat := x / 32768

/-- Buffer normalisation, "a no-op when the buffer is empty or all zero" (R224). DESIGN CHOICE, log 19: the
host's float format is stated nowhere, and the division by the peak is exact, never rounded to a float. -/
def normalise (audio : List Rat) : List Rat :=
  let peak := audio.foldl (fun m v => max m |v|) 0
  if peak = 0 then audio else audio.map (· / peak)

/-! ### Hex diagnostic dump (R222) -/

/-- The value of a hexadecimal digit, none for any other character. -/
def hexDigit (c : Char) : Option Nat :=
  if '0' ≤ c ∧ c ≤ '9' then some (c.toNat - '0'.toNat)
  else if 'a' ≤ c ∧ c ≤ 'f' then some (c.toNat - 'a'.toNat + 10)
  else if 'A' ≤ c ∧ c ≤ 'F' then some (c.toNat - 'A'.toNat + 10)
  else none

/-- The character of a digit below 16; `capital` says which of the two letters stands for 10 to 15. -/
def hexChar (capital : Bool) (d : Nat) : Char :=
  if d < 10 then Char.ofNat ('0'.toNat + d)
  else if capital then Char.ofNat ('A'.toNat + (d - 10))
  else Char.ofNat ('a'.toNat + (d - 10))

/-- The digits of the dump, two a byte, the more significant first (as reconstruction reads them). -/
def hexDigits (payload : List Byte) : List Nat := payload.flatMap fun b => [b.toNat / 16, b.toNat % 16]

/-- "One long hex string" (R222), with `capital` the case of a letter at each place of it. -/
def hexText (capital : Nat → Bool) (payload : List Byte) : List Char :=
  (hexDigits payload).mapIdx fun i d => hexChar (capital i) d

/-- The dump of a decoded payload (R222). DESIGN CHOICE, log 14: the case of its letters is a free value. -/
def hexDump : List Byte → List Char := hexText Config.hexCapital

/-- Bytes from digits; a last lone digit is followed by 0 ("appends \"0\" and does not reject it"). -/
def bytesOfDigits : List Nat → List Byte
  | [] => []
  | [d] => [BitVec.ofNat 8 (16 * d)]
  | d :: e :: rest => BitVec.ofNat 8 (16 * d + e) :: bytesOfDigits rest

/-- Reconstruction "strips all non-hex characters before hex-decoding" (R222). It gives bytes for every text:
R222 leaves no text on which the HexDecodeError of R230 could arise (DEDUCED, log 14). -/
def hexReconstruct (text : List Char) : List Byte := bytesOfDigits (text.filterMap hexDigit)

/-! ### File names (R210, R217, R218) -/

/-- basename: what follows the last separator. PRESUMED, log 14: the spec names the function and does not
define it; which characters separate is the caller's to say. -/
def basename (separators path : List Char) : List Char :=
  (path.reverse.takeWhile fun c => !separators.contains c).reverse

/-- The UTF-8 bytes of a character. PRESUMED, log 14: the encoding's general definition. -/
def utf8Char (c : Char) : List Byte :=
  let tail (k : Nat) : Byte := BitVec.ofNat 8 (0x80 + c.toNat / 64 ^ k % 64)
  if c.toNat < 0x80 then [BitVec.ofNat 8 c.toNat]
  else if c.toNat < 0x800 then [BitVec.ofNat 8 (0xC0 + c.toNat / 64), tail 0]
  else if c.toNat < 0x10000 then [BitVec.ofNat 8 (0xE0 + c.toNat / 64 ^ 2), tail 1, tail 0]
  else [BitVec.ofNat 8 (0xF0 + c.toNat / 64 ^ 3), tail 2, tail 1, tail 0]

/-- utf8(text) (R217). -/
def utf8 (text : List Char) : List Byte := text.flatMap utf8Char

/-- `k` more bytes of a character whose leading bits are `v` and whose least value in this length is
`least`: a longer form than needed, a surrogate or a value above 0x10FFFF is no character. -/
def utf8Tail : Nat → Nat → Nat → List Byte → Option (Char × List Byte)
  | 0, least, v, rest => if least ≤ v ∧ v.isValidChar then some (Char.ofNat v, rest) else none
  | k + 1, least, v, b :: rest =>
    if b.toNat / 64 = 2 then utf8Tail k least (64 * v + b.toNat % 64) rest else none
  | _ + 1, _, _, [] => none

/-- The first character of a UTF-8 byte sequence, and the rest. -/
def utf8Head : List Byte → Option (Char × List Byte)
  | [] => none
  | b :: rest =>
    if b.toNat < 0x80 then utf8Tail 0 0 b.toNat rest
    else if b.toNat / 32 = 6 then utf8Tail 1 0x80 (b.toNat % 32) rest
    else if b.toNat / 16 = 14 then utf8Tail 2 0x800 (b.toNat % 16) rest
    else if b.toNat / 8 = 30 then utf8Tail 3 0x10000 (b.toNat % 8) rest
    else none

/-- The characters of a UTF-8 byte sequence, at most `fuel` of them. -/
def utf8DecodeUpTo : Nat → List Byte → Option (List Char)
  | _, [] => some []
  | 0, _ :: _ => none
  | fuel + 1, bytes => do
    let (c, rest) ← utf8Head bytes
    let cs ← utf8DecodeUpTo fuel rest
    pure (c :: cs)

/-- UTF-8 decoding; none is the decode failure of R218. -/
def utf8Decode (bytes : List Byte) : Option (List Char) := utf8DecodeUpTo bytes.length bytes

/-! ### The driver's pure parts (R217, R218, R265) -/

/-- What the host configures: the tuning words of the active table, BPS, SPS, IRQ_EN as wanted (R265), and
the characters that separate the parts of a path. -/
structure DriverConfig where
  tones : List Word
  bps : Nat
  sps : Nat
  irqEn : Nat
  separators : List Char
  deriving DecidableEq, Repr

/-- A host write of `v` at byte offset `off` (R93). -/
def wrLine (off v : Nat) : Offer := busWord true (BitVec.ofNat 9 off) (BitVec.ofNat 32 v)

/-- Steps 2 to 6 of the configuration sequence, in the rule's numbering (R265: they "may come in any
order"): TONE[s] for s < M, CFG, SPS, SRC_RATE for a decoder only, IRQ_EN, and the stale events. -/
def configLines (c : DriverConfig) (srcRate : Option Nat) : List Offer :=
  (c.tones.take (2 ^ c.bps)).zipIdx.map (fun p => wrLine (0x100 + 4 * p.2) p.1.toNat)
    ++ [wrLine 0x010 c.bps, wrLine 0x014 c.sps] ++ (srcRate.map (wrLine 0x018)).toList
    ++ [wrLine 0x024 c.irqEn, wrLine 0x020 0x7F]

/-- The symbols of a file (R217):
`bits_to_symbols(bytes_to_bits(encode_frame(utf8(basename(filename)), file_bytes)), BPS)`. -/
def encodeSymbols (c : DriverConfig) (filename : List Char) (file : List Byte) :
    Except FrameError (List Nat) :=
  (encodeFrame (utf8 (basename c.separators filename)) file).map fun frame =>
    bitsToSymbols (bytesToBits frame) c.bps

/-- An order of an encoding's port lines that R217 allows: the symbols offered in order on S_SYM_IN, and
len(S) * SPS words taken from M_SMP_OUT, in any interleaving (R10). -/
def isEncodeOrder (symbols : List Nat) (sps : Nat) (lines : List Offer) : Bool :=
  lines.filter (· != .smpOut) == symbols.map (fun s => .symIn (BitVec.ofNat 8 s))
    && lines.count .smpOut == symbols.length * sps

/-- One such order. DESIGN CHOICE, log 18: R217 and R10 leave open how symbol offers and sample takes
interleave; here one symbol is offered and then its SPS words are taken. -/
def encodeLines (symbols : List Nat) (sps : Nat) : List Offer :=
  symbols.flatMap fun s => .symIn (BitVec.ofNat 8 s) :: List.replicate sps .smpOut

/-- The audio of the words taken from M_SMP_OUT: their SAMPLE fields (R87, R217). -/
def audioOfWords (words : List (BitVec 17)) : List Sample := words.map (·.extractLsb' 0 16)

/-- The words offered on S_SMP_IN: the samples in order, LAST on the final one only (R88, R218). -/
def sampleWords (audio : List Sample) : List (BitVec 17) :=
  audio.zipIdx.map fun p => BitVec.ofBool (p.2 + 1 = audio.length) ++ p.1

/-- An order of a decoding's port lines that R218 allows: the samples in order, and one take from M_SYM_OUT
for each whole window, in any interleaving (R10). -/
def isDecodeOrder (audio : List Sample) (sps : Nat) (lines : List Offer) : Bool :=
  lines.filter (· != .symOut) == (sampleWords audio).map .smpIn
    && lines.count .symOut == audio.length / sps

/-- One such order. DESIGN CHOICE, log 18: R218 and R10 leave open when a symbol is taken from M_SYM_OUT;
here one is taken right after every SPS samples. -/
def decodeLines (audio : List Sample) (sps : Nat) : List Offer :=
  (sampleWords audio).zipIdx.flatMap fun p =>
    .smpIn p.1 :: if (p.2 + 1) % sps = 0 then [.symOut] else []

/-- The filename and payload of the decoded symbols (R218 stage 3). On a truncated frame, on a name that
is not UTF-8, or where the caller selects it, the fallback is the default name and the entire frame body. -/
def decodeResult (useFallback : Bool) (defaultName : List Char) (symbols : List Nat) (bps : Nat) :
    List Char × List Byte :=
  let data := bitsToBytes (symbolsToBits symbols bps)
  match decodeFrame data with
  | .error _ => (defaultName, data)
  | .ok (metadata, payload) =>
    match utf8Decode metadata with
    | none => (defaultName, data)
    | some name => if useFallback then (defaultName, data) else (name, payload)

end Sys2Proof.Machine
end

