-- ==== Sys2Proof/Safety.lean ====
section
/-! DEFINITION. The terms in which claims about the machine are stated: the invariant of every run, runs of
several operations, the exact correlation and Gram values, a valid configuration, and the status of a
register map read. -/

namespace Sys2Proof.Machine

open Sys2Proof

/-! ### Running several operations -/

/-- The operations one after the other, stopping where one gives no next state. -/
def execAll : List Instr → State → Host.Outcome State Fault Refusal
  | [], s => .next s
  | i :: rest, s =>
    match exec i s with
    | .next t => execAll rest t
    | .fault r => .fault r
    | .refused r => .refused r

/-! ### The opcode table's rows over a transaction vector (R95) -/

/-- A row of spec/opcode_table.json: a vector belongs to it when `TV & mask = pattern`. -/
structure BusRow where
  mnemonic : String
  pattern : Nat
  mask : Nat
  deriving DecidableEq, Repr

/-- The malformed transactions and the commands, tested first. -/
def busRowsCommands : List BusRow :=
  [⟨"BUS_ERROR_SZ1", 0x00000000000, 0x60000000000⟩,
   ⟨"BUS_ERROR_SZ2", 0x20000000000, 0x60000000000⟩,
   ⟨"BUS_ERROR_SZRSV", 0x60000000000, 0x60000000000⟩,
   ⟨"BUS_ERROR_MISALIGN1", 0x00100000000, 0x00300000000⟩,
   ⟨"BUS_ERROR_MISALIGN2", 0x00200000000, 0x00300000000⟩,
   ⟨"BUS_ERROR_MISALIGN3", 0x00300000000, 0x00300000000⟩,
   ⟨"NOP", 0xC0C00000000, 0xFFFFFFFFFFF⟩,
   ⟨"START", 0xC0C00000001, 0xFFFFFFFFFFF⟩,
   ⟨"STOP", 0xC0C00000002, 0xFFFFFFFFFFF⟩,
   ⟨"FLUSH", 0xC0C00000003, 0xFFFFFFFFFFF⟩,
   ⟨"CMD_ILLEGAL", 0xC0C00000000, 0xFFF00000000⟩]

/-- The registers ID to WR_EVENTS. -/
def busRowsLow : List BusRow :=
  [⟨"RD_ID", 0x40000000000, 0xFFF00000000⟩,
   ⟨"WR_RO_ID", 0xC0000000000, 0xFFF00000000⟩,
   ⟨"RD_VERSION", 0x40400000000, 0xFFF00000000⟩,
   ⟨"WR_RO_VERSION", 0xC0400000000, 0xFFF00000000⟩,
   ⟨"RD_FS_HZ", 0x40800000000, 0xFFF00000000⟩,
   ⟨"WR_RO_FS_HZ", 0xC0800000000, 0xFFF00000000⟩,
   ⟨"RD_CMD", 0x40C00000000, 0xFFF00000000⟩,
   ⟨"RD_CFG", 0x41000000000, 0xFFF00000000⟩,
   ⟨"WR_CFG", 0xC1000000000, 0xFFF00000000⟩,
   ⟨"RD_SPS", 0x41400000000, 0xFFF00000000⟩,
   ⟨"WR_SPS", 0xC1400000000, 0xFFF00000000⟩,
   ⟨"RD_SRC_RATE", 0x41800000000, 0xFFF00000000⟩,
   ⟨"WR_SRC_RATE", 0xC1800000000, 0xFFF00000000⟩,
   ⟨"RD_STATUS", 0x41C00000000, 0xFFF00000000⟩,
   ⟨"WR_RO_STATUS", 0xC1C00000000, 0xFFF00000000⟩,
   ⟨"RD_EVENTS", 0x42000000000, 0xFFF00000000⟩,
   ⟨"WR_EVENTS", 0xC2000000000, 0xFFF00000000⟩]

/-- The registers IRQ_EN to DET_FILL, the tone table and the reserved offsets. -/
def busRowsHigh : List BusRow :=
  [⟨"RD_IRQ_EN", 0x42400000000, 0xFFF00000000⟩,
   ⟨"WR_IRQ_EN", 0xC2400000000, 0xFFF00000000⟩,
   ⟨"RD_ERRINFO", 0x42800000000, 0xFFF00000000⟩,
   ⟨"WR_RO_ERRINFO", 0xC2800000000, 0xFFF00000000⟩,
   ⟨"RD_SYN_SYMCNT", 0x42C00000000, 0xFFF00000000⟩,
   ⟨"WR_RO_SYN_SYMCNT", 0xC2C00000000, 0xFFF00000000⟩,
   ⟨"RD_DET_WINCNT", 0x43000000000, 0xFFF00000000⟩,
   ⟨"WR_RO_DET_WINCNT", 0xC3000000000, 0xFFF00000000⟩,
   ⟨"RD_DET_DROPCNT", 0x43400000000, 0xFFF00000000⟩,
   ⟨"WR_RO_DET_DROPCNT", 0xC3400000000, 0xFFF00000000⟩,
   ⟨"RD_DET_FILL", 0x43800000000, 0xFFF00000000⟩,
   ⟨"WR_RO_DET_FILL", 0xC3800000000, 0xFFF00000000⟩,
   ⟨"RD_TONE", 0x50000000000, 0xF0300000000⟩,
   ⟨"WR_TONE", 0xD0000000000, 0xF0300000000⟩,
   ⟨"RD_RESERVED", 0x40000000000, 0xE0300000000⟩,
   ⟨"WR_RESERVED", 0xC0000000000, 0xE0300000000⟩]

/-- The rows in the table's order. -/
def busRows : List BusRow := busRowsCommands ++ busRowsLow ++ busRowsHigh

/-- "a decoder picks the first row in file order whose `(TV & mask) == match`" (R95). -/
def firstBusRow (tv : Tv) : Option String :=
  (busRows.find? fun r => tv.toNat &&& r.mask == r.pattern).map BusRow.mnemonic

/-! ### Configuration -/

/-- The configurations that START accepts, said without its order of checks (R30, R31, R41, R132). -/
structure ConfigValid (b : Block) : Prop where
  bpsLegal : 1 ≤ b.bps.toNat ∧ b.bps.toNat ≤ 6
  spsLegal : 1 ≤ b.sps.toNat
  ftwLegal : ∀ s < alphabet b, 0 < (toneAt b s).toNat ∧ (toneAt b s).toNat < 2 ^ 31
  ftwDistinct : ∀ t < alphabet b, ∀ s < t, toneAt b s ≠ toneAt b t

/-- Which operation raises which error in a block, the rows of R233: the cause code, INFO and the bit of EVENTS.
The four causes of a refused START are checked in the order of R132, so each has the earlier checks passed. -/
inductive Raises (b : Block) : Instr → BitVec 4 → BitVec 8 → Nat → Prop where
  /-- CFG_BPS: BPS is 0 or 7 (R132). -/
  | cfgBps : b.active = false → (b.bps.toNat < 1 ∨ 6 < b.bps.toNat) →
      Raises b .start 1#4 (BitVec.ofNat 8 b.bps.toNat) 4
  /-- CFG_SPS: SPS is 0 (R132). -/
  | cfgSps : b.active = false → 1 ≤ b.bps.toNat → b.bps.toNat ≤ 6 → b.sps = 0#16 → Raises b .start 2#4 0#8 4
  /-- CFG_FTW_RANGE: `k` is the lowest active index whose tuning word is 0 or at least 2^31 (R132). -/
  | cfgFtwRange (k : Nat) : b.active = false → 1 ≤ b.bps.toNat → b.bps.toNat ≤ 6 → b.sps ≠ 0#16 →
      k < alphabet b → (toneAt b k = 0#32 ∨ 2 ^ 31 ≤ (toneAt b k).toNat) →
      (∀ j < k, toneAt b j ≠ 0#32 ∧ (toneAt b j).toNat < 2 ^ 31) → Raises b .start 3#4 (BitVec.ofNat 8 k) 4
  /-- CFG_FTW_DUP: `k` is the lowest active index that repeats an earlier entry (R132). -/
  | cfgFtwDup (k : Nat) : b.active = false → 1 ≤ b.bps.toNat → b.bps.toNat ≤ 6 → b.sps ≠ 0#16 →
      (∀ j < alphabet b, toneAt b j ≠ 0#32 ∧ (toneAt b j).toNat < 2 ^ 31) →
      k < alphabet b → (∃ j < k, toneAt b j = toneAt b k) →
      (∀ i < k, ∀ j < i, toneAt b j ≠ toneAt b i) → Raises b .start 4#4 (BitVec.ofNat 8 k) 4
  /-- SOR: SYN_LOAD is enabled and the head of `si` is outside the alphabet (R157, R159). -/
  | sor (v : Byte) (rest : List Byte) : synLoadEnabled b = true → b.si = v :: rest → alphabet b ≤ v.toNat →
      Raises b .synLoad 5#4 v 3
  /-- CMD_ILLEGAL: an illegal command word, in a session or not (R136). -/
  | cmdIllegal (w : Word) : Raises b (.cmdIllegal w) 6#4 (BitVec.ofNat 8 (w.toNat % 256)) 5
  /-- CMD_STATE: START in a session (R133). -/
  | cmdState : b.active = true → Raises b .start 7#4 0x01#8 5
  /-- LOCKED_WRITE to CFG in a session (R126). -/
  | lockedCfg (x : Word) : b.active = true → Raises b (.wrCfg x) 8#4 4#8 5
  /-- LOCKED_WRITE to SPS in a session (R126). -/
  | lockedSps (x : Word) : b.active = true → Raises b (.wrSps x) 8#4 5#8 5
  /-- LOCKED_WRITE to SRC_RATE in a session (R126). -/
  | lockedSrcRate (x : Word) : b.active = true → Raises b (.wrSrcRate x) 8#4 6#8 5
  /-- LOCKED_WRITE to TONE[k] in a session (R126). -/
  | lockedTone (k : BitVec 6) (x : Word) : b.active = true →
      Raises b (.wrTone k x) 8#4 (BitVec.ofNat 8 (64 + k.toNat)) 5

/-- The configuration registers (R25): what a session locks. -/
def SameConfig (b c : Block) : Prop :=
  c.bps = b.bps ∧ c.sps = b.sps ∧ c.srcRate = b.srcRate ∧ c.tone = b.tone

/-! ### Correlation (R181, R195) -/

/-- corr(w, s) for the tuning word of lane s: the exact integer inner product (R181). -/
def corr (w : List Int) (ftw : Word) : Int :=
  ∑ n ∈ Finset.range w.length, w.getD n 0 * wave ftw n

/-- The decision for a window: argmax over the active lanes, lowest index on a tie (R181, R182). -/
def windowSymbol (b : Block) (w : List Int) : Nat :=
  argmaxLowest (fun s => corr w (toneAt b s)) (alphabet b)

/-- G(t, s) (R195). -/
def gram (b : Block) (t s : Nat) : Int :=
  ∑ n ∈ Finset.range b.sps.toNat, wave (toneAt b t) n * wave (toneAt b s) n

/-- The predicate of R195. -/
def Distinguishable (b : Block) : Prop :=
  ∀ t < alphabet b, (∀ s < t, gram b t s < gram b t t) ∧
    (∀ s < alphabet b, t < s → gram b t s ≤ gram b t t)

/-- The words of one whole tone on M_SMP_OUT: SYM_LAST on the last only (R155, R160). -/
def toneWords (ftw : Word) (sps : Nat) : List (BitVec 17) :=
  (List.range sps).map fun n => smpOutWord (wave ftw n) (decide (n + 1 = sps))

/-! ### The symbols a run accepts (R156, R163) -/

/-- The symbol an operation would put into `si`. -/
def offeredSymbol : Instr → Option Byte
  | .symIn v => some v
  | _ => none

/-- The symbols accepted on S_SYM_IN along a run, in order of acceptance. -/
def acceptedSymbols : List Instr → State → List Byte
  | [], _ => []
  | i :: rest, s =>
    (if enabled s.depths s.blk i then (offeredSymbol i).toList else []) ++
      match exec i s with
      | .next t => acceptedSymbols rest t
      | .fault _ => []
      | .refused _ => []

/-- The symbol whose tone is being emitted, if any. -/
def inFlight (b : Block) : List Byte := if b.synBusy then [b.synSym.zeroExtend 8] else []

/-- The words of the running tone that have been taken already. -/
def toneSoFar (b : Block) : List (BitVec 17) :=
  if b.synBusy then (toneWords (toneAt b b.synSym.toNat) b.sps.toNat).take b.synN.toNat else []

/-- A sample stream with LAST on its final sample only (R88, R191). -/
def markedStream (xs : List Sample) : List Instr :=
  xs.zipIdx.map fun p => .smpIn p.1 (decide (p.2 + 1 = xs.length))

/-- The samples as signed integers (R14). -/
def values (xs : List Sample) : List Int := xs.map sampleValue

/-- Window number k of a stream: samples k*sps .. k*sps + sps - 1 (R189). -/
def windowAt (xs : List Sample) (sps k : Nat) : List Int := values ((xs.drop (k * sps)).take sps)

/-! ### The invariant of every run -/

/-- |w[n] * ref| never exceeds this (R183): 32768 * 32767. -/
def maxProduct : Int := 1073709056

/-- What holds of the block in every state a run with FIFO depths `d` reaches (R25, R26, R30, R31, R40, R41, R89, R183, R233). -/
structure Block.Inv (d : Config.Depths) (b : Block) : Prop where
  siFits : b.si.length ≤ d.dSi
  soFits : b.so.length ≤ d.dSo
  configured : b.active = true → ConfigValid b
  idle : b.active = false → b.si = [] ∧ b.synBusy = false ∧ b.synHalt = false ∧ b.detFill = 0#16
  toneIdle : b.synBusy = false → b.synSym = 0#6 ∧ b.synN = 0#16
  toneRunning : b.synBusy = true → b.synSym.toNat < alphabet b ∧ b.synN.toNat < b.sps.toNat
  haltedIsIdle : b.synHalt = true → b.synBusy = false
  windowOpen : b.active = true → b.detFill.toNat < b.sps.toNat
  accBounded : ∀ s, |accAt b s| ≤ b.detFill.toNat * maxProduct
  deadLanes : ∀ s, alphabet b ≤ s → accAt b s = 0
  symbolsLegal : b.active = true → ∀ x ∈ b.so, x.toNat < alphabet b
  causeKnown : b.errCode.toNat ≤ 8

/-- The invariant of a machine state: depths that R6 allows, and that of its block. The agents' fields are
unconstrained, so it says nothing about which lines come. -/
def State.Inv (s : State) : Prop := s.depths.Legal ∧ s.blk.Inv s.depths

/-! ### Counting samples (95_test_vectors.md, properties) -/

/-- DET_WINCNT * sps + DET_DROPCNT + DET_FILL, modulo 2^32: the samples accepted since START. -/
def samplesSeen (b : Block) : Word :=
  b.wincnt * b.sps.zeroExtend 32 + b.dropcnt + b.detFill.zeroExtend 32

/-! ### What each engine can see -/

/-- Two blocks agree on everything the detector reads or owns (R165, R196). -/
def SameDetector (b c : Block) : Prop :=
  c.active = b.active ∧ SameConfig b c ∧ c.acc = b.acc ∧ c.detFill = b.detFill ∧ c.so = b.so ∧
    c.wincnt = b.wincnt ∧ c.dropcnt = b.dropcnt

/-- Two blocks agree on everything the synthesizer reads or owns (R165). -/
def SameSynth (b c : Block) : Prop :=
  c.active = b.active ∧ SameConfig b c ∧ c.si = b.si ∧ c.synBusy = b.synBusy ∧ c.synSym = b.synSym ∧
    c.synN = b.synN ∧ c.synHalt = b.synHalt ∧ c.symcnt = b.symcnt

end Sys2Proof.Machine
end

