-- ==== Sys2Proof/Certificates/Slice0/Obligations.lean ====
section
/-! DEFINITION. The statements for the provers. Each `Obligations.<Name> : Prop` says what the spec's rules
say an operation, a run or the machine does; OBLIGATIONS.json lists them with the rules they formalise.
Where a statement gives the whole next state as an equation, every field it does not name is unchanged. -/

open Sys2Proof Sys2Proof.Machine

/-! ### Decoding and encoding -/

/-- Words written out in the spec (R85, R93, 95_test_vectors.md) decode to the operations they stand for. -/
def Obligations.SpecWordsDecode : Prop :=
  decode (.bus 0x40000000000#44) = .rdId ∧
  decode (.bus 0x41C00000000#44) = .rdStatus ∧
  decode (.bus 0xC0C00000001#44) = .start ∧
  decode (.bus 0xC0C00000101#44) = .cmdIllegal 0x101#32 ∧
  decode (.bus 0xC1412345678#44) = .wrSps 0x12345678#32 ∧
  decode (.bus 0xD0430000000#44) = .wrTone 1#6 0x30000000#32 ∧
  decode (.bus 0xC40FFFFFFFF#44) = .wrReserved 16#7 0xFFFFFFFF#32 ∧
  decode (.bus 0x01C00000000#44) = .busErrorSz1 false 0x01C#9 0#32 ∧
  decode (.bus 0x41E00000000#44) = .busErrorMisalign2 false 7#7 0#32 ∧
  decode (.symIn 0x07#8) = .symIn 7#8 ∧
  decode (.smpIn 0x1A57E#17) = .smpIn 0xA57E#16 true

/-- Every well-formed operation is read back from the line that encodes it, with every operand. -/
def Obligations.DecodeInvertsEncode : Prop :=
  ∀ i : Instr, WellFormed i → decode (encode i) = i

/-- R95: the decoder picks the first row of the opcode table, in file order, that matches the vector, and
some row matches every vector. -/
def Obligations.DecodePicksFirstTableRow : Prop :=
  ∀ tv : Tv, firstBusRow tv = some (decodeBus tv).mnemonic

/-- Every line of every interface decodes to an operation whose operands its row admits (R83, R91). -/
def Obligations.DecodedOperationsAreWellFormed : Prop :=
  ∀ o : Offer, WellFormed (decode o)

/-- No bit of a write or of a malformed transaction is dropped by decoding: encoding gives the vector back
(the WDATA of a legal read is don't-care, R81). -/
def Obligations.EncodeInvertsDecodeOfWrites : Prop :=
  ∀ tv : Tv, tv.we = true ∨ tv.sz ≠ 0b10#2 ∨ tv.addr.extractLsb' 0 2 ≠ 0#2 →
    encode (decodeBus tv) = .bus tv

/-! ### One step -/

/-- The next line, when its operation is enabled and SYN_LOAD does not go first, is performed: the step is
`exec` of the decoded operation on the state with that line taken off the agenda. The agenda and the field
synFirst are the model's choice of an order that R10, R69 and R93 leave open: DESIGN CHOICE, log 1, log 2. -/
def Obligations.StepPerformsTheNextLine : Prop :=
  ∀ (s : State) (o : Offer) (rest : List Offer), s.agenda = o :: rest →
    enabled s.depths s.blk (decode o) = true → (s.synFirst = false ∨ synLoadEnabled s.blk = false) →
    WellFormed (decode o) ∧ step s = exec (decode o) { s with agenda := rest }

/-- A line that is not enabled waits, whatever else is scheduled: SYN_LOAD is taken meanwhile if it is
enabled, and otherwise nothing changes. With no line left, or with SYN_LOAD scheduled first, an enabled
SYN_LOAD is the step (R93, R282). The scheduling is the model's choice: log 2, log 3. -/
def Obligations.StepWaitsAndTakesSynLoad : Prop :=
  ∀ s : State,
    (∀ o rest, s.agenda = o :: rest → enabled s.depths s.blk (decode o) = false →
      step s = if synLoadEnabled s.blk then .next { s with blk := synLoadBlock s.blk } else .next s) ∧
    (s.agenda = [] →
      step s = if synLoadEnabled s.blk then .next { s with blk := synLoadBlock s.blk } else .next s) ∧
    (s.synFirst = true → synLoadEnabled s.blk = true →
      step s = .next { s with blk := synLoadBlock s.blk })

/-! ### Reset -/

/-- R46: every element of the state after reset. -/
def Obligations.ResetValues : Prop :=
  State.reset.blk.active = false ∧ (∀ i : Fin 64, State.reset.blk.tone[i] = 0x00000000#32) ∧
  State.reset.blk.bps = 6#3 ∧ State.reset.blk.sps = 110#16 ∧ State.reset.blk.srcRate = 22050#32 ∧
  State.reset.blk.si = [] ∧ State.reset.blk.synBusy = false ∧ State.reset.blk.synHalt = false ∧
  State.reset.blk.synSym = 0#6 ∧ State.reset.blk.synN = 0#16 ∧
  (∀ s : Fin 64, State.reset.blk.acc[s] = 0) ∧ State.reset.blk.detFill = 0#16 ∧
  State.reset.blk.so = [] ∧ State.reset.blk.events = 0#7 ∧ State.reset.blk.irqEn = 0#7 ∧
  State.reset.blk.errCode = 0#4 ∧ State.reset.blk.errInfo = 0#8 ∧ State.reset.blk.symcnt = 0#32 ∧
  State.reset.blk.wincnt = 0#32 ∧ State.reset.blk.dropcnt = 0#32 ∧ irq State.reset.blk = false

/-- R261: after reset irq is low, no port is ready or valid and the internal step is not enabled, so a port
line or the internal step changes nothing: the block does nothing until a bus transaction arrives. That
`exec` of such an operation answers the unchanged state is log 3 (DEDUCED), and that a step from State.reset
changes nothing rests on its empty agenda (DESIGN CHOICE, log 1). -/
def Obligations.ResetBlockIsQuiet : Prop :=
  irq Block.reset = false ∧ (∀ d, symInReady d Block.reset = false) ∧
  smpOutValid Block.reset = false ∧ (∀ d, smpInReady d Block.reset = false) ∧
  symOutValid Block.reset = false ∧
  (∀ s : State, s.blk = Block.reset → ∀ (v : Byte) (x : Sample) (last : Bool),
    exec (.symIn v) s = .next s ∧ exec .smpOut s = .next s ∧ exec (.smpIn x last) s = .next s ∧
    exec .symOut s = .next s ∧ exec .synLoad s = .next s) ∧
  step State.reset = .next State.reset

/-- The invariant of every run holds after reset. -/
def Obligations.ResetMeetsInvariant : Prop := State.reset.Inv

/-- R262: after reset START is refused, with ERRINFO = 0x00000003 and EVENTS.ERR_CFG set. -/
def Obligations.StartAfterResetIsRefused : Prop :=
  ∀ s : State, s.blk = Block.reset →
    ∃ t, exec .start s = .next t ∧ errInfoWord t.blk = 0x00000003#32 ∧ t.blk.events = 0x10#7 ∧
      t = { s with
        blk := { s.blk with events := 0x10#7, errCode := 3#4, errInfo := 0#8 }
        responses := s.responses ++ [.written] }

/-! ### Malformed transactions -/

/-- R100: any transaction whose size is not 4 bytes or whose offset is not a multiple of 4 answers err = 1 and
rdata = 0 and changes no state; and so each of the six operations such transactions decode to. -/
def Obligations.BusErrorsChangeNoState : Prop :=
  (∀ (tv : Tv) (s : State), tv.sz ≠ 0b10#2 ∨ tv.addr.extractLsb' 0 2 ≠ 0#2 →
    exec (decode (.bus tv)) s = .next { s with responses := s.responses ++ [.busError] }) ∧
  (∀ (we : Bool) (addr : BitVec 9) (word : BitVec 7) (wdata : Word) (s : State),
    exec (.busErrorSz1 we addr wdata) s = .next { s with responses := s.responses ++ [.busError] } ∧
    exec (.busErrorSz2 we addr wdata) s = .next { s with responses := s.responses ++ [.busError] } ∧
    exec (.busErrorSzRsv we addr wdata) s = .next { s with responses := s.responses ++ [.busError] } ∧
    exec (.busErrorMisalign1 we word wdata) s = .next { s with responses := s.responses ++ [.busError] } ∧
    exec (.busErrorMisalign2 we word wdata) s = .next { s with responses := s.responses ++ [.busError] } ∧
    exec (.busErrorMisalign3 we word wdata) s = .next { s with responses := s.responses ++ [.busError] })

/-! ### Reads -/

/-- R101 to R104, R107: the constant registers, CMD and the reserved offsets read as the spec says, with
their encodings, and a reserved write does nothing. -/
def Obligations.ConstantAndReservedOffsets : Prop :=
  ∀ (s : State) (x : Word) (word : BitVec 7),
    decode (busWord false 0x000#9 x) = .rdId ∧
    exec .rdId s = .next { s with responses := s.responses ++ [.read 0x54544344#32] } ∧
    decode (busWord false 0x004#9 x) = .rdVersion ∧
    exec .rdVersion s = .next { s with responses := s.responses ++ [.read 0x00000001#32] } ∧
    decode (busWord false 0x008#9 x) = .rdFsHz ∧
    exec .rdFsHz s = .next { s with responses := s.responses ++ [.read 22050#32] } ∧
    decode (busWord false 0x00C#9 x) = .rdCmd ∧
    exec .rdCmd s = .next { s with responses := s.responses ++ [.read 0#32] } ∧
    (15 ≤ word.toNat ∧ word.toNat ≤ 63 →
      decode (busWord false (offsetOf word 0#2) x) = .rdReserved word ∧
      decode (busWord true (offsetOf word 0#2) x) = .wrReserved word x) ∧
    exec (.rdReserved word) s = .next { s with responses := s.responses ++ [.read 0#32] } ∧
    exec (.wrReserved word x) s = .next { s with responses := s.responses ++ [.written] }

/-- R108, R110, R112, R117, R124: the configuration registers, IRQ_EN and the tone table read as the value
they hold, zero-extended, with their encodings. -/
def Obligations.ConfigurationReads : Prop :=
  ∀ (s : State) (x : Word) (i : BitVec 6),
    decode (busWord false 0x010#9 x) = .rdCfg ∧
    exec .rdCfg s =
      .next { s with responses := s.responses ++ [.read (BitVec.ofNat 32 s.blk.bps.toNat)] } ∧
    decode (busWord false 0x014#9 x) = .rdSps ∧
    exec .rdSps s =
      .next { s with responses := s.responses ++ [.read (BitVec.ofNat 32 s.blk.sps.toNat)] } ∧
    decode (busWord false 0x018#9 x) = .rdSrcRate ∧
    exec .rdSrcRate s = .next { s with responses := s.responses ++ [.read s.blk.srcRate] } ∧
    decode (busWord false 0x024#9 x) = .rdIrqEn ∧
    exec .rdIrqEn s =
      .next { s with responses := s.responses ++ [.read (BitVec.ofNat 32 s.blk.irqEn.toNat)] } ∧
    decode (busWord false (BitVec.ofNat 9 (0x100 + 4 * i.toNat)) x) = .rdTone i ∧
    exec (.rdTone i) s =
      .next { s with responses := s.responses ++ [.read (s.blk.tone[i.toNat]'i.isLt)] }

/-- R114 (and the fields of R33): STATUS, bit by bit, computed from the state of this step; nothing changes
but the response. -/
def Obligations.StatusReadBitByBit : Prop :=
  ∀ (s : State) (x : Word), decode (busWord false 0x01C#9 x) = .rdStatus ∧
    ∃ r : Word, exec .rdStatus s = .next { s with responses := s.responses ++ [.read r] } ∧
      r.getLsbD 0 = s.blk.active ∧ r.getLsbD 1 = s.blk.synBusy ∧ r.getLsbD 2 = s.blk.synHalt ∧
      (r.getLsbD 3 = true ↔ s.blk.detFill ≠ 0#16) ∧ (r.getLsbD 4 = true ↔ s.blk.srcRate ≠ 22050#32) ∧
      r.getLsbD 5 = irq s.blk ∧ r.extractLsb' 6 2 = 0#2 ∧
      r.extractLsb' 8 5 = BitVec.ofNat 5 s.blk.si.length ∧ r.extractLsb' 13 3 = 0#3 ∧
      r.extractLsb' 16 5 = BitVec.ofNat 5 s.blk.so.length ∧ r.extractLsb' 21 11 = 0#11

/-- R115, R119 to R123: EVENTS, ERRINFO, the counters and DET_FILL read as the value they hold; nothing
changes but the response. -/
def Obligations.EventAndCounterReads : Prop :=
  ∀ (s : State) (x : Word),
    decode (busWord false 0x020#9 x) = .rdEvents ∧
    exec .rdEvents s =
      .next { s with responses := s.responses ++ [.read (BitVec.ofNat 32 s.blk.events.toNat)] } ∧
    decode (busWord false 0x028#9 x) = .rdErrInfo ∧
    exec .rdErrInfo s =
      .next { s with responses := s.responses ++
        [.read (BitVec.ofNat 32 (256 * s.blk.errInfo.toNat + s.blk.errCode.toNat))] } ∧
    decode (busWord false 0x02C#9 x) = .rdSynSymCnt ∧
    exec .rdSynSymCnt s = .next { s with responses := s.responses ++ [.read s.blk.symcnt] } ∧
    decode (busWord false 0x030#9 x) = .rdDetWinCnt ∧
    exec .rdDetWinCnt s = .next { s with responses := s.responses ++ [.read s.blk.wincnt] } ∧
    decode (busWord false 0x034#9 x) = .rdDetDropCnt ∧
    exec .rdDetDropCnt s = .next { s with responses := s.responses ++ [.read s.blk.dropcnt] } ∧
    decode (busWord false 0x038#9 x) = .rdDetFill ∧
    exec .rdDetFill s =
      .next { s with responses := s.responses ++ [.read (BitVec.ofNat 32 s.blk.detFill.toNat)] }

/-- R67: no read transaction, legal or malformed, at any offset, changes anything but the responses, and a
second read with no step between answers the same. -/
def Obligations.ReadsHaveNoSideEffect : Prop :=
  ∀ (tv : Tv) (s : State), tv.we = false →
    ∃ r : BusResponse, r ≠ .written ∧
      exec (decode (.bus tv)) s = .next { s with responses := s.responses ++ [r] } ∧
      exec (decode (.bus tv)) { s with responses := s.responses ++ [r] } =
        .next { s with responses := s.responses ++ [r] ++ [r] }

/-! ### Writes -/

/-- R105, R137: a write to any read-only register, and NOP, answer and change nothing else; each with its
encoding. -/
def Obligations.IgnoredWrites : Prop :=
  ∀ (s : State) (x : Word) (p : Offer × Instr),
    p ∈ [(busWord true 0x000#9 x, .wrRoId x), (busWord true 0x004#9 x, .wrRoVersion x),
        (busWord true 0x008#9 x, .wrRoFsHz x), (busWord true 0x01C#9 x, .wrRoStatus x),
        (busWord true 0x028#9 x, .wrRoErrInfo x), (busWord true 0x02C#9 x, .wrRoSynSymCnt x),
        (busWord true 0x030#9 x, .wrRoDetWinCnt x), (busWord true 0x034#9 x, .wrRoDetDropCnt x),
        (busWord true 0x038#9 x, .wrRoDetFill x), (busWord true 0x00C#9 0#32, .nop)] →
    decode p.1 = p.2 ∧ exec p.2 s = .next { s with responses := s.responses ++ [.written] }

/-- R116: a write to EVENTS clears exactly the bits written as 1, in every state, and changes nothing else
(ERRINFO among it). -/
def Obligations.EventsWriteOneToClear : Prop :=
  ∀ (s : State) (x : Word), decode (busWord true 0x020#9 x) = .wrEvents x ∧
    ∃ t, exec (.wrEvents x) s = .next t ∧
      (∀ k < 7, t.blk.events.getLsbD k = (s.blk.events.getLsbD k && !x.getLsbD k)) ∧
      t = { s with
        blk := { s.blk with events := t.blk.events }, responses := s.responses ++ [.written] }

/-- R118, R236: IRQ_EN takes wdata[6:0] in every state and nothing else changes; irq is high exactly when some
event is set and enabled, so after this write it follows the new mask in the same step. -/
def Obligations.InterruptMaskAndLine : Prop :=
  (∀ b : Block, irq b = true ↔ ∃ k < 7, b.events.getLsbD k = true ∧ b.irqEn.getLsbD k = true) ∧
  ∀ (s : State) (x : Word), decode (busWord true 0x024#9 x) = .wrIrqEn x ∧
    ∃ t, exec (.wrIrqEn x) s = .next t ∧
      (∀ k < 7, t.blk.irqEn.getLsbD k = x.getLsbD k) ∧
      (irq t.blk = true ↔ ∃ k < 7, s.blk.events.getLsbD k = true ∧ x.getLsbD k = true) ∧
      t = { s with
        blk := { s.blk with irqEn := t.blk.irqEn }, responses := s.responses ++ [.written] }

/-- R109, R111, R113, R126: outside a session CFG, SPS and SRC_RATE take their fields of the written word;
in a session the write is refused with cause 8 and INFO 4, 5 or 6, and the register keeps its value. -/
def Obligations.ConfigurationWrites : Prop :=
  ∀ (s : State) (x : Word),
    decode (busWord true 0x010#9 x) = .wrCfg x ∧
    decode (busWord true 0x014#9 x) = .wrSps x ∧
    decode (busWord true 0x018#9 x) = .wrSrcRate x ∧
    (s.blk.active = false →
      exec (.wrCfg x) s = .next { s with
        blk := { s.blk with bps := BitVec.ofNat 3 (x.toNat % 8) }
        responses := s.responses ++ [.written] } ∧
      exec (.wrSps x) s = .next { s with
        blk := { s.blk with sps := BitVec.ofNat 16 (x.toNat % 65536) }
        responses := s.responses ++ [.written] } ∧
      exec (.wrSrcRate x) s = .next { s with
        blk := { s.blk with srcRate := x }
        responses := s.responses ++ [.written] }) ∧
    (s.blk.active = true →
      exec (.wrCfg x) s = .next { s with
        blk := { s.blk with events := s.blk.events ||| 0x20#7, errCode := 8#4, errInfo := 4#8 }
        responses := s.responses ++ [.written] } ∧
      exec (.wrSps x) s = .next { s with
        blk := { s.blk with events := s.blk.events ||| 0x20#7, errCode := 8#4, errInfo := 5#8 }
        responses := s.responses ++ [.written] } ∧
      exec (.wrSrcRate x) s = .next { s with
        blk := { s.blk with events := s.blk.events ||| 0x20#7, errCode := 8#4, errInfo := 6#8 }
        responses := s.responses ++ [.written] })

/-- R125, R126: outside a session TONE[i] takes the written word, whatever it is, and no other entry and
nothing else changes; in a session the write is refused with cause 8 and INFO 64 + i. -/
def Obligations.ToneWrites : Prop :=
  ∀ (s : State) (i : BitVec 6) (x : Word),
    decode (busWord true (BitVec.ofNat 9 (0x100 + 4 * i.toNat)) x) = .wrTone i x ∧
    (s.blk.active = false →
      ∃ t, exec (.wrTone i x) s = .next t ∧
        (∀ j : Fin 64, t.blk.tone[j] = if j.val = i.toNat then x else s.blk.tone[j]) ∧
        t = { s with
          blk := { s.blk with tone := t.blk.tone }, responses := s.responses ++ [.written] }) ∧
    (s.blk.active = true →
      exec (.wrTone i x) s = .next { s with
        blk := { s.blk with
          events := s.blk.events ||| 0x20#7, errCode := 8#4, errInfo := BitVec.ofNat 8 (64 + i.toNat) }
        responses := s.responses ++ [.written] })

/-- R67: a repeated write of the same value to an RW, RWL or W1C register leaves the block as the first one
did. -/
def Obligations.RepeatedWritesAreIdempotent : Prop :=
  ∀ (s t u : State) (x : Word) (k : BitVec 6) (i : Instr),
    i ∈ [.wrCfg x, .wrSps x, .wrSrcRate x, .wrTone k x, .wrEvents x, .wrIrqEn x] →
    exec i s = .next t → exec i t = .next u → u.blk = t.blk

/-! ### Commands -/

/-- R84, R85, R130: the words 0 to 3 written to CMD are NOP, START, STOP and FLUSH, and every other word is
illegal, whatever its OP byte holds. -/
def Obligations.CommandWordDecoding : Prop :=
  ∀ w : Word, decode (busWord true 0x00C#9 w) =
    if w = 0#32 then .nop else if w = 1#32 then .start else if w = 2#32 then .stop
    else if w = 3#32 then .flush else .cmdIllegal w

/-- R136: an illegal command word, in a session or not, sets ERR_ACCESS and ERRINFO (cause 6, INFO the low byte
of the word), and changes nothing else. -/
def Obligations.IllegalCommandOnlyRaises : Prop :=
  ∀ (s : State) (w : Word),
    (w.toNat / 256 ≠ 0 ∨ 4 ≤ w.toNat % 256 → decode (busWord true 0x00C#9 w) = .cmdIllegal w) ∧
    exec (.cmdIllegal w) s = .next { s with
      blk := { s.blk with
        events := s.blk.events ||| 0x20#7, errCode := 6#4, errInfo := BitVec.ofNat 8 (w.toNat % 256) }
      responses := s.responses ++ [.written] }

/-- R131: outside a session, with a configuration that is legal in the terms of R30, R31 and R41, START opens a
session: both FIFOs, both engines, the accumulators and the three counters are cleared, WARN_SRMM is
signalled on a rate mismatch, and EVENTS, ERRINFO, IRQ_EN and the configuration stay. -/
def Obligations.StartOpensSession : Prop :=
  ∀ s : State, s.blk.active = false → ConfigValid s.blk →
    decode (busWord true 0x00C#9 0x00000001#32) = .start ∧
    exec .start s = .next { s with
      blk := { s.blk with
        active := true, si := [], so := [], synBusy := false, synHalt := false, synSym := 0#6
        synN := 0#16, acc := Vector.replicate 64 0, detFill := 0#16
        symcnt := 0#32, wincnt := 0#32, dropcnt := 0#32
        events :=
          if s.blk.srcRate = 22050#32 then s.blk.events else s.blk.events ||| 0x40#7 }
      responses := s.responses ++ [.written] }

/-- R132: outside a session START is refused by the first check that fails, in the rule's order, with the rule's
cause and INFO, and nothing else changes: cause 1 for BPS, 2 for SPS, 3 for the lowest active index whose
tuning word is 0 or at least 2^31, 4 for the lowest active index that repeats an earlier entry. Where every
check passes, START is accepted and records no error. -/
def Obligations.StartRefusals : Prop :=
  ∀ s : State, s.blk.active = false →
    let refused (code : BitVec 4) (info : BitVec 8) := Host.Outcome.next (φ := Fault) (ρ := Refusal)
      { s with
        blk := { s.blk with
          events := s.blk.events ||| 0x10#7, errCode := code, errInfo := info }
        responses := s.responses ++ [.written] }
    let outOfRange (k : Nat) := toneAt s.blk k = 0#32 ∨ 2 ^ 31 ≤ (toneAt s.blk k).toNat
    let repeats (k : Nat) := ∃ j < k, toneAt s.blk j = toneAt s.blk k
    let bpsLegal := 1 ≤ s.blk.bps.toNat ∧ s.blk.bps.toNat ≤ 6
    (¬ bpsLegal → exec .start s = refused 1#4 (BitVec.ofNat 8 s.blk.bps.toNat)) ∧
    (bpsLegal → s.blk.sps = 0#16 → exec .start s = refused 2#4 0#8) ∧
    (bpsLegal → s.blk.sps ≠ 0#16 → ∀ k < alphabet s.blk, outOfRange k → (∀ j < k, ¬ outOfRange j) →
      exec .start s = refused 3#4 (BitVec.ofNat 8 k)) ∧
    (bpsLegal → s.blk.sps ≠ 0#16 → (∀ j < alphabet s.blk, ¬ outOfRange j) →
      ∀ k < alphabet s.blk, repeats k → (∀ j < k, ¬ repeats j) →
      exec .start s = refused 4#4 (BitVec.ofNat 8 k)) ∧
    (bpsLegal → s.blk.sps ≠ 0#16 → (∀ j < alphabet s.blk, ¬ outOfRange j ∧ ¬ repeats j) →
      ∃ t, exec .start s = .next t ∧ t.blk.active = true ∧ t.blk.errCode = s.blk.errCode ∧
        t.blk.errInfo = s.blk.errInfo)

/-- R133: START in a session raises ERR_ACCESS with cause 7 and INFO 1, and the session is not disturbed. -/
def Obligations.StartWhileActive : Prop :=
  decode (busWord true 0x00C#9 0x00000001#32) = .start ∧
  ∀ s : State, s.blk.active = true →
    exec .start s = .next { s with
      blk := { s.blk with events := s.blk.events ||| 0x20#7, errCode := 7#4, errInfo := 0x01#8 }
      responses := s.responses ++ [.written] }

/-- R134: STOP, in every state: the session, the synthesizer, `si` and the window are cleared, a non-empty
partial window is counted in dropcnt and signalled, and everything else stays (`so` among it). R134 says both that
DET_DROP is signalled and that
EVENTS is unchanged; they are read together as log 17 says (DEDUCED). -/
def Obligations.StopClosesSession : Prop :=
  ∀ s : State, decode (busWord true 0x00C#9 0x00000002#32) = .stop ∧
    exec .stop s = .next { s with
      blk := { s.blk with
        active := false, si := [], synBusy := false, synHalt := false, synSym := 0#6, synN := 0#16
        dropcnt :=
          if s.blk.detFill = 0#16 then s.blk.dropcnt
          else s.blk.dropcnt + BitVec.ofNat 32 s.blk.detFill.toNat
        events := if s.blk.detFill = 0#16 then s.blk.events else s.blk.events ||| 0x04#7
        acc := Vector.replicate 64 0, detFill := 0#16 }
      responses := s.responses ++ [.written] }

/-- R134 (e): in every state a run reaches, STOP outside a session changes nothing. -/
def Obligations.StopOutsideSessionIsIdle : Prop :=
  ∀ s : State, s.Inv → s.blk.active = false →
    exec .stop s = .next { s with responses := s.responses ++ [.written] }

/-- R135: FLUSH discards a non-empty partial window of a session, counting and signalling it; with an empty
window, or outside a session, it has no effect. -/
def Obligations.FlushDiscardsPartialWindow : Prop :=
  ∀ s : State, decode (busWord true 0x00C#9 0x00000003#32) = .flush ∧
    (s.blk.active = true → s.blk.detFill ≠ 0#16 →
      exec .flush s = .next { s with
        blk := { s.blk with
          dropcnt := s.blk.dropcnt + BitVec.ofNat 32 s.blk.detFill.toNat
          events := s.blk.events ||| 0x04#7, acc := Vector.replicate 64 0, detFill := 0#16 }
        responses := s.responses ++ [.written] }) ∧
    (s.blk.active = false ∨ s.blk.detFill = 0#16 →
      exec .flush s = .next { s with responses := s.responses ++ [.written] })

/-! ### The waveform -/

/-- R152: the waveform function is what a phase accumulator gives that starts at 0 and adds the tuning word
modulo 2^32 before each following sample. -/
def Obligations.WaveIsPhaseAccumulator : Prop :=
  ∀ (ftw : Word) (n : Nat),
    wave ftw n = sineRom (((fun p : Word => p + ftw)^[n] 0#32).toNat / 2 ^ 20)

/-- R151, R162: the symmetries and the range of SINE_ROM, and the first sample of every tone. -/
def Obligations.SineRomSymmetry : Prop :=
  sineRom 0 = 0 ∧ sineRom 2048 = 0 ∧ sineRom 1024 = 32767 ∧ sineRom 3072 = -32767 ∧
  (∀ k < 2048, sineRom (k + 2048) = -sineRom k) ∧
  (∀ k, 1 ≤ k → k ≤ 2047 → sineRom (2048 - k) = sineRom k) ∧
  (∀ k : ℕ, k < 4096 → -32767 ≤ sineRom k ∧ sineRom k ≤ 32767) ∧
  (∀ ftw : Word, wave ftw 0 = 0)

/-- R150: every entry of SINE_ROM is 32767 * sin(2 * pi * k / 4096) over the reals, rounded to the nearest
integer, halves away from zero. -/
def Obligations.SineRomRoundsTheSine : Prop :=
  ∀ k : ℕ, k < 4096 →
    (0 ≤ 32767 * Real.sin (2 * Real.pi * k / 4096) →
      sineRom k = ⌊32767 * Real.sin (2 * Real.pi * k / 4096) + 1 / 2⌋) ∧
    (32767 * Real.sin (2 * Real.pi * k / 4096) < 0 →
      sineRom k = -⌊-(32767 * Real.sin (2 * Real.pi * k / 4096)) + 1 / 2⌋)

/-- R154: with f the frequency that the block realises, every sample is within
32767 * 2 * pi / 4096 + 0.5 of 32767 * sin(2 * pi * f * n / 22050), and that bound is below 50.8. -/
def Obligations.WaveIsCloseToTheSine : Prop :=
  ∀ (ftw : Word) (n : Nat) (f : ℝ), f = ftw.toNat * 22050 / 2 ^ 32 →
    |(wave ftw n : ℝ) - 32767 * Real.sin (2 * Real.pi * f * n / 22050)| ≤
        32767 * (2 * Real.pi / 4096) + 1 / 2 ∧
      32767 * (2 * Real.pi / 4096) + 1 / 2 < 50.8

/-! ### The synthesizer -/

/-- R158: a symbol word of any value is pushed into `si` when S_SYM_IN is ready (R157), for every depth D_SI
(R6, log 8). That `exec` of a SYM_IN that is not ready answers the unchanged state is the model's reading of
R10 and R13: DEDUCED, log 3. -/
def Obligations.SymInPushesOrWaits : Prop :=
  ∀ (s : State) (v : Byte), decode (.symIn v) = .symIn v ∧
    (s.blk.active = true → s.blk.synHalt = false → s.blk.si.length < s.depths.dSi →
      exec (.symIn v) s = .next { s with blk := { s.blk with si := s.blk.si ++ [v] } }) ∧
    (s.blk.active = false ∨ s.blk.synHalt = true ∨ s.depths.dSi ≤ s.blk.si.length →
      exec (.symIn v) s = .next s)

/-- R159: SYN_LOAD takes the oldest symbol; below M = 2^bps it starts the symbol's tone, at or above M it halts
the synthesizer and raises ERR_SOR with cause 5 and the symbol as INFO. That `exec` of a SYN_LOAD that is not
enabled answers the unchanged state is the model's reading of R10: DEDUCED, log 3. -/
def Obligations.SynLoadStartsOrHalts : Prop :=
  ∀ s : State,
    (∀ (v : Byte) (rest : List Byte), s.blk.active = true → s.blk.synHalt = false →
      s.blk.synBusy = false → s.blk.si = v :: rest →
      (v.toNat < 2 ^ s.blk.bps.toNat →
        exec .synLoad s = .next { s with
          blk := { s.blk with
            si := rest, synSym := BitVec.ofNat 6 v.toNat, synN := 0#16, synBusy := true } }) ∧
      (2 ^ s.blk.bps.toNat ≤ v.toNat →
        exec .synLoad s = .next { s with
          blk := { s.blk with
            si := rest, synHalt := true
            events := s.blk.events ||| 0x08#7, errCode := 5#4, errInfo := v } })) ∧
    (s.blk.active = false ∨ s.blk.synHalt = true ∨ s.blk.synBusy = true ∨ s.blk.si = [] →
      exec .synLoad s = .next s)

/-- R160, R161: while M_SMP_OUT is valid a transfer carries sample n of the running tone, with SYM_LAST exactly
at n = sps - 1; there the tone ends, symcnt counts it and SYN_IDLE is signalled if `si` is empty, and
elsewhere the index advances. That `exec` of an SMP_OUT while M_SMP_OUT is not valid answers the unchanged
state is the model's reading of R10 and R13: DEDUCED, log 3. -/
def Obligations.SmpOutEmitsTheTone : Prop :=
  ∀ s : State,
    (s.blk.active = true → s.blk.synBusy = true → s.blk.synN.toNat + 1 ≠ s.blk.sps.toNat →
      exec .smpOut s = .next { s with
        blk := { s.blk with synN := s.blk.synN + 1#16 }
        smpWords := s.smpWords ++
          [0#1 ++ BitVec.ofInt 16 (wave (s.blk.tone[s.blk.synSym.toNat]'s.blk.synSym.isLt)
            s.blk.synN.toNat)] }) ∧
    (s.blk.active = true → s.blk.synBusy = true → s.blk.synN.toNat + 1 = s.blk.sps.toNat →
      exec .smpOut s = .next { s with
        blk := { s.blk with
          synBusy := false, synN := 0#16, synSym := 0#6, symcnt := s.blk.symcnt + 1#32
          events := if s.blk.si = [] then s.blk.events ||| 0x01#7 else s.blk.events }
        smpWords := s.smpWords ++
          [1#1 ++ BitVec.ofInt 16 (wave (s.blk.tone[s.blk.synSym.toNat]'s.blk.synSym.isLt)
            s.blk.synN.toNat)] }) ∧
    (s.blk.active = false ∨ s.blk.synBusy = false → exec .smpOut s = .next s)

/-- R155, R160: from the start of a tone, sps transfers emit exactly that tone's words, SYM_LAST on the last
one only, and leave the synthesizer idle with the tone counted. -/
def Obligations.WholeToneIsEmitted : Prop :=
  ∀ s : State, s.blk.active = true → s.blk.synBusy = true → s.blk.synN = 0#16 →
    1 ≤ s.blk.sps.toNat →
    execAll (List.replicate s.blk.sps.toNat .smpOut) s = .next { s with
      blk := { s.blk with
        synBusy := false, synSym := 0#6, symcnt := s.blk.symcnt + 1#32
        events := if s.blk.si = [] then s.blk.events ||| 0x01#7 else s.blk.events }
      smpWords := s.smpWords ++
        toneWords (toneAt s.blk s.blk.synSym.toNat) s.blk.sps.toNat }

/-- R156, R163: from an idle synthesizer of a session, along any run of operations of any agents in any order,
without STOP and with in-range symbols only, the words on M_SMP_OUT are the whole tones of the symbols
accepted so far, in order of acceptance, then the words of the running tone up to its index; the accepted
symbols are those done, then the one in flight, then those in `si`; and symcnt counts those done. -/
def Obligations.EmittedStreamIsTheTones : Prop :=
  ∀ (is : List Instr) (s : State), s.blk.active = true → s.blk.synHalt = false →
    s.blk.synBusy = false → s.blk.si = [] → 1 ≤ s.blk.sps.toNat → s.blk.bps.toNat ≤ 6 →
    .stop ∉ is → (∀ v : Byte, .symIn v ∈ is → v.toNat < alphabet s.blk) →
    ∃ (t : State) (done : List Byte), execAll is s = .next t ∧
      acceptedSymbols is s = done ++ inFlight t.blk ++ t.blk.si ∧
      t.smpWords = s.smpWords ++
        done.flatMap (fun v => toneWords (toneAt s.blk v.toNat) s.blk.sps.toNat) ++ toneSoFar t.blk ∧
      t.blk.symcnt = s.blk.symcnt + BitVec.ofNat 32 done.length

/-! ### The detector -/

/-- R182: argmax_lowest answers an active lane, no active lane is above it, and every lower lane is below it. -/
def Obligations.ArgmaxIsLowestMaximum : Prop :=
  ∀ (acc : Nat → Int) (m : Nat), 1 ≤ m →
    argmaxLowest acc m < m ∧ (∀ s < m, acc s ≤ acc (argmaxLowest acc m)) ∧
      ∀ s < argmaxLowest acc m, acc s < acc (argmaxLowest acc m)

/-- R185 to R187: while S_SMP_IN is ready a sample x at window position n adds x * wave(tone[s], n) to every
active lane s and to no other; the window completes when the position reaches sps (its argmax is pushed,
wincnt counts it, DET_SYM is signalled), is discarded by a LAST mark otherwise (dropcnt counts its samples,
DET_DROP is signalled), and stays open else; for every depth D_SO (R6, log 8). That `exec` of an SMP_IN while
S_SMP_IN is not ready answers the unchanged state is the model's reading of R10 and R13: DEDUCED, log 3. -/
def Obligations.SmpInAccumulatesAndDecides : Prop :=
  ∀ (s : State) (x : Sample) (last : Bool),
    (s.blk.active = true → s.blk.so.length < s.depths.dSo →
      ∃ acc : Lanes Int,
        (∀ k : Fin 64, acc[k] =
          if k.val < alphabet s.blk then
            s.blk.acc[k] + x.toInt * wave s.blk.tone[k] s.blk.detFill.toNat
          else s.blk.acc[k]) ∧
        (s.blk.detFill + 1#16 = s.blk.sps →
          exec (.smpIn x last) s = .next { s with
            blk := { s.blk with
              so := s.blk.so ++
                [BitVec.ofNat 6 (argmaxLowest (laneD 0 acc) (alphabet s.blk))]
              wincnt := s.blk.wincnt + 1#32, events := s.blk.events ||| 0x02#7
              acc := Vector.replicate 64 0, detFill := 0#16 } }) ∧
        (s.blk.detFill + 1#16 ≠ s.blk.sps → last = true →
          exec (.smpIn x last) s = .next { s with
            blk := { s.blk with
              dropcnt := s.blk.dropcnt + BitVec.ofNat 32 (s.blk.detFill + 1#16).toNat
              events := s.blk.events ||| 0x04#7
              acc := Vector.replicate 64 0, detFill := 0#16 } }) ∧
        (s.blk.detFill + 1#16 ≠ s.blk.sps → last = false →
          exec (.smpIn x last) s = .next { s with
            blk := { s.blk with acc := acc, detFill := s.blk.detFill + 1#16 } })) ∧
    (s.blk.active = false ∨ s.depths.dSo ≤ s.blk.so.length → exec (.smpIn x last) s = .next s)

/-- R188: a transfer on M_SYM_OUT takes the oldest symbol, zero-extended, in a session or not. That `exec` of a
SYM_OUT with `so` empty answers the unchanged state is the model's reading of R10 and R13: DEDUCED, log 3. -/
def Obligations.SymOutTakesTheOldest : Prop :=
  ∀ s : State,
    (∀ (x : BitVec 6) (rest : List (BitVec 6)), s.blk.so = x :: rest →
      exec .symOut s = .next { s with
        blk := { s.blk with so := rest }
        symWords := s.symWords ++ [BitVec.ofNat 8 x.toNat] }) ∧
    (s.blk.so = [] → exec .symOut s = .next s)

/-- R181, R182, R186: from a window boundary, sps samples (a LAST mark allowed on the final one) push exactly the
argmax of their exact correlations, and leave the detector at the next boundary. -/
def Obligations.WholeWindowIsDecided : Prop :=
  ∀ (s : State) (xs : List Sample) (x : Sample) (last : Bool),
    s.blk.active = true → s.blk.bps.toNat ≤ 6 → s.blk.detFill = 0#16 →
    s.blk.acc = Vector.replicate 64 0 → s.blk.so.length < s.depths.dSo → xs.length + 1 = s.blk.sps.toNat →
    execAll (xs.map (fun y => .smpIn y false) ++ [.smpIn x last]) s = .next { s with
      blk := { s.blk with
        so := s.blk.so ++ [BitVec.ofNat 6 (windowSymbol s.blk (values (xs ++ [x])))]
        wincnt := s.blk.wincnt + 1#32, events := s.blk.events ||| 0x02#7 } }

/-- R191: after k * sps + r samples with only the last one marked LAST, 0 < r < sps, exactly the symbols of the k
full windows are pushed, the r samples are counted in dropcnt and det_fill is 0; and with r = 0 and k >= 1
nothing is dropped. The k symbols must fit into `so`, since none is taken meanwhile (R184). -/
def Obligations.PartialTailIsDropped : Prop :=
  ∀ (s : State) (xs : List Sample) (k r : Nat),
    s.blk.active = true → s.blk.bps.toNat ≤ 6 → s.blk.detFill = 0#16 →
    s.blk.acc = Vector.replicate 64 0 → 1 ≤ xs.length → r < s.blk.sps.toNat →
    xs.length = k * s.blk.sps.toNat + r →
    (s.blk.so.length + k < s.depths.dSo ∨ r = 0 ∧ s.blk.so.length + k = s.depths.dSo) →
    ∃ t, execAll (markedStream xs) s = .next t ∧
      t.blk.so = s.blk.so ++ (List.range k).map (fun j =>
        BitVec.ofNat 6 (windowSymbol s.blk (windowAt xs s.blk.sps.toNat j))) ∧
      t.blk.dropcnt = s.blk.dropcnt + BitVec.ofNat 32 r ∧ t.blk.detFill = 0#16 ∧
      t.blk.wincnt = s.blk.wincnt + BitVec.ofNat 32 k

/-- R194: scaling a window by c multiplies every correlation by c; for c >= 1 the symbol is the same, for c = 0 it
is 0, and negation gives the argmax of the negated correlations. -/
def Obligations.IntegerScalingKeepsTheSymbol : Prop :=
  ∀ (b : Block) (w : List Int),
    (∀ (c : Int) (ftw : Word), corr (w.map (c * ·)) ftw = c * corr w ftw) ∧
    (∀ c : Int, 1 ≤ c → windowSymbol b (w.map (c * ·)) = windowSymbol b w) ∧
    windowSymbol b (w.map ((0 : Int) * ·)) = 0 ∧
    windowSymbol b (w.map (fun x => -x)) =
      argmaxLowest (fun s => -corr w (toneAt b s)) (alphabet b)

/-- R192, R193: a window whose active correlations are all equal gives symbol 0; an all-zero window is one, and
with sps = 1 every window is one. -/
def Obligations.EqualCorrelationsGiveSymbolZero : Prop :=
  ∀ (b : Block) (w : List Int),
    ((∀ s < alphabet b, corr w (toneAt b s) = corr w (toneAt b 0)) → windowSymbol b w = 0) ∧
    ((∀ x ∈ w, x = 0) → windowSymbol b w = 0) ∧ (w.length = 1 → windowSymbol b w = 0)

/-- R195, the decision: every symbol's own tone decodes to that symbol exactly when the table is Distinguishable
at the configured sps. -/
def Obligations.DistinguishableIffTonesDecode : Prop :=
  ∀ b : Block,
    (∀ t < alphabet b, windowSymbol b (toneWave (toneAt b t) b.sps.toNat) = t) ↔ Distinguishable b

/-- R195, the machine: with a Distinguishable table, an in-range symbol given to an idle synthesizer comes out as
sps words whose samples, fed to the detector at a window boundary, push that symbol. -/
def Obligations.LoopBackReturnsTheSymbol : Prop :=
  ∀ (s : State) (v : Byte), s.Inv → s.blk.active = true → s.blk.synHalt = false →
    s.blk.synBusy = false → s.blk.si = [] → s.blk.detFill = 0#16 → s.blk.so.length < s.depths.dSo →
    v.toNat < alphabet s.blk → Distinguishable s.blk →
    ∃ (t u : State) (words : List (BitVec 17)),
      execAll ([.symIn v, .synLoad] ++ List.replicate s.blk.sps.toNat .smpOut) s = .next t ∧
      t.smpWords = s.smpWords ++ words ∧ words.length = s.blk.sps.toNat ∧
      execAll (words.map fun w => .smpIn (w.extractLsb' 0 16) false) t = .next u ∧
      u.blk.so = s.blk.so ++ [BitVec.ofNat 6 v.toNat] ∧ u.blk.detFill = 0#16

/-! ### The whole machine -/

/-- R34: an event that is set stays set through every operation but a write to EVENTS. -/
def Obligations.EventsAreSticky : Prop :=
  ∀ (i : Instr) (s t : State), (∀ x, i ≠ .wrEvents x) → exec i s = .next t →
    ∀ k < 7, s.blk.events.getLsbD k = true → t.blk.events.getLsbD k = true

/-- R36, R231, R233: an operation that raises an error leaves that error's cause and INFO in ERRINFO and its bit of
EVENTS set, and every other operation leaves ERRINFO as it was. Raises says, in the terms of R126, R132, R133,
R136 and R159, which operation raises which error when: START refused by its first failing check (causes 1 to
4) or given in a session (7), an illegal command word (6), a write to CFG, SPS, SRC_RATE or TONE[i] in a
session (8) and an enabled SYN_LOAD of an out-of-range symbol (5). -/
def Obligations.ErrInfoFollowsItsEvent : Prop :=
  ∀ (i : Instr) (s t : State), exec i s = .next t →
    (∀ code info bit, Raises s.blk i code info bit →
      t.blk.errCode = code ∧ t.blk.errInfo = info ∧ t.blk.events.getLsbD bit = true) ∧
    ((∀ code info bit, ¬ Raises s.blk i code info bit) →
      t.blk.errCode = s.blk.errCode ∧ t.blk.errInfo = s.blk.errInfo)

/-- R25: a session begins only by START with a legal configuration and ends only by STOP; during it no operation
changes CFG, SPS, SRC_RATE or the tone table; and outside it no word crosses S_SYM_IN, M_SMP_OUT or
S_SMP_IN, and SYN_LOAD does nothing. That `exec` of such an operation answers the unchanged state is the model's
reading of R10 and R13: DEDUCED, log 3. -/
def Obligations.SessionRule : Prop :=
  ∀ (i : Instr) (s t : State), exec i s = .next t →
    (s.blk.active = false → t.blk.active = true → i = .start ∧ ConfigValid s.blk) ∧
    (s.blk.active = true → t.blk.active = false → i = .stop) ∧
    (s.blk.active = true → SameConfig s.blk t.blk) ∧
    (s.blk.active = false → ∀ (v : Byte) (x : Sample) (last : Bool),
      i = .symIn v ∨ i = .smpOut ∨ i = .smpIn x last ∨ i = .synLoad → t = s)

/-- R165: the synthesizer's operations change nothing the detector reads or owns, and the detector's operations
nothing the synthesizer reads or owns. -/
def Obligations.EnginesShareNoMutableState : Prop :=
  ∀ (i : Instr) (s t : State), exec i s = .next t →
    ((∃ v, i = .symIn v) ∨ i = .smpOut ∨ i = .synLoad →
      SameDetector s.blk t.blk ∧ t.symWords = s.symWords) ∧
    ((∃ x last, i = .smpIn x last) ∨ i = .symOut →
      SameSynth s.blk t.blk ∧ t.smpWords = s.smpWords)

/-- R196: what a sample does to the detector, and the symbol a transfer takes, depend only on what the detector
reads or owns: two states that agree on that still agree on it after the same operation. -/
def Obligations.DetectorIsLocal : Prop :=
  ∀ (i : Instr) (s s' t t' : State), (∃ x last, i = .smpIn x last) ∨ i = .symOut →
    SameDetector s.blk s'.blk → s'.depths = s.depths → s'.symWords = s.symWords →
    exec i s = .next t → exec i s' = .next t' →
    SameDetector t.blk t'.blk ∧ t'.symWords = t.symWords

/-- The invariant of every run is kept by every step from every state that meets it, whatever lines come. -/
def Obligations.StepKeepsInvariant : Prop :=
  ∀ s t : State, s.Inv → step s = .next t → t.Inv

/-- No step stops the machine or changes its FIFO depths (R22, R263). That nothing stops it is DEDUCED, log 16,
and that a step in which a line only waits answers the unchanged state is DEDUCED, log 3. The depths change
when a handshake is enabled and never a value (R6, D16): an operation enabled under two depths has one
effect. -/
def Obligations.EveryStepAnswersNext : Prop :=
  (∀ s : State, ∃ t, step s = .next t ∧ t.depths = s.depths) ∧
  ∀ (i : Instr) (s : State) (d : Config.Depths), enabled s.depths s.blk i = true →
    enabled d s.blk i = true →
    ∃ t, exec i s = .next t ∧ exec i { s with depths := d } = .next { t with depths := d }

/-- R183: in every state that meets the invariant every accumulator, and in a session every sum that accepting a
further sample of any value forms, the completing sample's among them (before the window is cleared), lies
within 70,365,522,984,960 < 2^47 of 0, so a signed 48-bit register never overflows. -/
def Obligations.AccumulatorsFitTheirRegister : Prop :=
  ∀ (d : Config.Depths) (b : Block), b.Inv d → ∀ s < 64,
    |accAt b s| ≤ 70365522984960 ∧ |accAt b s| < 2 ^ 47 ∧
    (b.active = true → ∀ x : Sample,
      |accAt (accumulate (sampleValue x) b) s| ≤ 70365522984960 ∧
      |accAt (accumulate (sampleValue x) b) s| < 2 ^ 47)

/-- 95_test_vectors.md (properties), R185 to R187, R134, R135: during a session
DET_WINCNT * sps + DET_DROPCNT + DET_FILL grows by one (modulo 2^32) with each sample accepted on S_SMP_IN
and by nothing else. -/
def Obligations.AcceptedSamplesAreCounted : Prop :=
  ∀ (i : Instr) (s t : State), s.Inv → s.blk.active = true → exec i s = .next t →
    samplesSeen t.blk = samplesSeen s.blk +
      (if (∃ x last, i = .smpIn x last) ∧ s.blk.so.length < s.depths.dSo then 1#32 else 0#32)

/-! ### The host reference -/

/-- R211, R212: a frame decodes to its metadata and payload, and metadata above 65535 bytes is refused. -/
def Obligations.FrameRoundTrip : Prop :=
  ∀ metadata payload : List Byte,
    (metadata.length ≤ 65535 → ∃ frame, encodeFrame metadata payload = .ok frame ∧
      frame.length = 2 + metadata.length + payload.length ∧
      decodeFrame frame = .ok (metadata, payload)) ∧
    (65535 < metadata.length → encodeFrame metadata payload = .error .metadataTooLarge)

/-- R213 to R216, R219: packing bytes into symbols of k bits, 1 <= k <= 6, and back returns the bytes, followed by
one 0x00 byte exactly when k does not divide the number of bits. -/
def Obligations.PackingAddsOneZeroByte : Prop :=
  ∀ (data : List Byte) (k : Nat), 1 ≤ k → k ≤ 6 →
    (∀ v ∈ bitsToSymbols (bytesToBits data) k, v < 2 ^ k) ∧
    bitsToBytes (symbolsToBits (bitsToSymbols (bytesToBits data) k) k) =
      data ++ if 8 * data.length % k = 0 then [] else [0x00#8]
end

