-- ==== Sys2Proof/Laws/Decode.lean ====
section
/-! SUPPORT. The fields of an encoded word read back, and decoding said on those fields, once. -/

namespace Sys2Proof

/-! ### Fields of a transaction vector -/

theorem mkTv_getLsbD (we : Bool) (sz : BitVec 2) (addr : BitVec 9) (wdata : Word) (i : Nat) :
    (mkTv we sz addr wdata).getLsbD i =
      if i < 32 then wdata.getLsbD i else if i < 41 then addr.getLsbD (i - 32)
      else if i < 43 then sz.getLsbD (i - 41) else (BitVec.ofBool we).getLsbD (i - 43) := by
  have e1 : i - 32 - 9 = i - 41 := by omega
  have e2 : i - 41 - 2 = i - 43 := by omega
  simp only [mkTv, BitVec.getLsbD_append, e1, e2]
  split
  · rfl
  · have h1 : (i - 32 < 9) = (i < 41) := by simp; omega
    have h2 : (i - 41 < 2) = (i < 43) := by simp; omega
    simp [h1, h2]

@[simp] theorem mkTv_we (we : Bool) (sz : BitVec 2) (addr : BitVec 9) (wdata : Word) :
    (mkTv we sz addr wdata).we = we := by
  rw [Tv.we, mkTv_getLsbD]; simp

@[simp] theorem mkTv_sz (we : Bool) (sz : BitVec 2) (addr : BitVec 9) (wdata : Word) :
    (mkTv we sz addr wdata).sz = sz := by
  apply BitVec.eq_of_getLsbD_eq
  intro i hi
  rw [Tv.sz, BitVec.getLsbD_extractLsb', mkTv_getLsbD]
  simp [hi, show 41 + i < 43 by omega, show ¬ 41 + i < 32 by omega]

@[simp] theorem mkTv_addr (we : Bool) (sz : BitVec 2) (addr : BitVec 9) (wdata : Word) :
    (mkTv we sz addr wdata).addr = addr := by
  apply BitVec.eq_of_getLsbD_eq
  intro i hi
  rw [Tv.addr, BitVec.getLsbD_extractLsb', mkTv_getLsbD]
  simp [hi, show 32 + i < 41 by omega]

@[simp] theorem mkTv_wdata (we : Bool) (sz : BitVec 2) (addr : BitVec 9) (wdata : Word) :
    (mkTv we sz addr wdata).wdata = wdata := by
  apply BitVec.eq_of_getLsbD_eq
  intro i hi
  rw [Tv.wdata, BitVec.getLsbD_extractLsb', mkTv_getLsbD]
  simp [hi]

/-- A vector is put together from its own fields. -/
theorem mkTv_fields (tv : Tv) : mkTv tv.we tv.sz tv.addr tv.wdata = tv := by
  apply BitVec.eq_of_getLsbD_eq
  intro i hi
  rw [mkTv_getLsbD]
  split
  · simp [Tv.wdata, *]
  · split
    · simp [Tv.addr, show i - 32 < 9 by omega,
        show 32 + (i - 32) = i by omega]
    · split
      · simp [Tv.sz, show i - 41 < 2 by omega,
          show 41 + (i - 41) = i by omega]
      · simp [Tv.we, show i = 43 by omega]

/-! ### Fields of a byte offset and of a port word -/

@[simp] theorem offsetOf_low (word : BitVec 7) (low : BitVec 2) :
    (offsetOf word low).extractLsb' 0 2 = low := by
  apply BitVec.eq_of_getLsbD_eq
  intro i hi
  simp only [offsetOf, BitVec.getLsbD_extractLsb', BitVec.getLsbD_append]
  simp [hi]

@[simp] theorem offsetOf_word (word : BitVec 7) (low : BitVec 2) :
    (offsetOf word low).extractLsb' 2 7 = word := by
  apply BitVec.eq_of_getLsbD_eq
  intro i hi
  simp only [offsetOf, BitVec.getLsbD_extractLsb', BitVec.getLsbD_append]
  simp [hi, show ¬ 2 + i < 2 by omega]

@[simp] theorem toneOffset_low (i : BitVec 6) : (toneOffset i).extractLsb' 0 2 = 0#2 := by
  revert i; decide

theorem toneOffset_isTone (i : BitVec 6) :
    ((toneOffset i).extractLsb' 2 7).getLsbD 6 = true := by
  revert i; decide

theorem toneOffset_index (i : BitVec 6) :
    ((toneOffset i).extractLsb' 2 7).extractLsb' 0 6 = i := by
  revert i; decide

theorem smpInWord_sample (last : Bool) (x : Sample) :
    (BitVec.ofBool last ++ x : BitVec 17).extractLsb' 0 16 = x := by
  apply BitVec.eq_of_getLsbD_eq
  intro i hi
  simp only [BitVec.getLsbD_extractLsb', BitVec.getLsbD_append]
  simp [hi]

theorem smpInWord_last (last : Bool) (x : Sample) :
    (BitVec.ofBool last ++ x : BitVec 17).getLsbD 16 = last := by
  simp only [BitVec.getLsbD_append]; simp

/-! ### Decoding, on the fields -/

/-- An encoded vector is decoded on its fields. -/
theorem decode_mkTv (we : Bool) (sz : BitVec 2) (addr : BitVec 9) (wdata : Word) :
    decode (.bus (mkTv we sz addr wdata)) = decodeFields we sz addr wdata := by
  simp [decode, decodeBus]

/-- An aligned word access is decoded by its word index. -/
theorem decode_busWord_aligned (we : Bool) (addr : BitVec 9) (wdata : Word)
    (h : addr.extractLsb' 0 2 = 0#2) :
    decode (busWord we addr wdata) = decodeAligned we (addr.extractLsb' 2 7) wdata := by
  rw [busWord, decode_mkTv]
  simp [decodeFields, h]

/-- R83 step 2: the word index of a TONE offset selects that entry. -/
theorem decode_toneOffset (we : Bool) (i : BitVec 6) (wdata : Word) :
    decode (busWord we (toneOffset i) wdata) = if we then .wrTone i wdata else .rdTone i := by
  rw [decode_busWord_aligned _ _ _ (toneOffset_low i), decodeAligned, toneOffset_isTone,
    toneOffset_index]
  rfl

/-- R83 step 4: a word index in 15..63 is reserved. -/
theorem decodeAligned_reserved (we : Bool) (word : BitVec 7) (wdata : Word)
    (h : 15 ≤ word.toNat ∧ word.toNat < 64) :
    decodeAligned we word wdata = if we then .wrReserved word wdata else .rdReserved word := by
  have h6 : word.getLsbD 6 = false := by
    rw [BitVec.getLsbD, Nat.testBit_lt_two_pow (by omega)]
  rw [decodeAligned, if_neg (by rw [h6]; decide), decodeRegister]
  split <;> first | omega | rfl

/-- R130: a command word above 3 is illegal. -/
theorem decodeCommand_illegal (w : Word) (h : 3 < w.toNat) : decodeCommand w = .cmdIllegal w := by
  rw [decodeCommand, if_pos]
  by_cases h0 : w.extractLsb' 8 24 = 0#24
  · right
    have := congrArg BitVec.toNat h0
    simp [BitVec.extractLsb'_toNat, Nat.shiftRight_eq_div_pow] at this ⊢
    omega
  · exact .inl h0

end Sys2Proof
end

