-- ==== Sys2Proof/Laws/State.lean ====
section
/-! SUPPORT. One lemma per field per named update of the block, true by definition, so that no proof
unfolds a record update; and the reads of the 64-entry arrays after each way of writing one. -/

namespace Sys2Proof.Machine

open Sys2Proof

/-! ### signal -/

section
variable (e : Event) (b : Block)

@[simp] theorem signal_active : (signal e b).active = b.active := rfl
@[simp] theorem signal_tone : (signal e b).tone = b.tone := rfl
@[simp] theorem signal_bps : (signal e b).bps = b.bps := rfl
@[simp] theorem signal_sps : (signal e b).sps = b.sps := rfl
@[simp] theorem signal_srcRate : (signal e b).srcRate = b.srcRate := rfl
@[simp] theorem signal_si : (signal e b).si = b.si := rfl
@[simp] theorem signal_synBusy : (signal e b).synBusy = b.synBusy := rfl
@[simp] theorem signal_synSym : (signal e b).synSym = b.synSym := rfl
@[simp] theorem signal_synN : (signal e b).synN = b.synN := rfl
@[simp] theorem signal_synHalt : (signal e b).synHalt = b.synHalt := rfl
@[simp] theorem signal_acc : (signal e b).acc = b.acc := rfl
@[simp] theorem signal_detFill : (signal e b).detFill = b.detFill := rfl
@[simp] theorem signal_so : (signal e b).so = b.so := rfl
@[simp] theorem signal_events : (signal e b).events = b.events ||| e.mask := rfl
@[simp] theorem signal_irqEn : (signal e b).irqEn = b.irqEn := rfl
@[simp] theorem signal_errCode : (signal e b).errCode = b.errCode := rfl
@[simp] theorem signal_errInfo : (signal e b).errInfo = b.errInfo := rfl
@[simp] theorem signal_symcnt : (signal e b).symcnt = b.symcnt := rfl
@[simp] theorem signal_wincnt : (signal e b).wincnt = b.wincnt := rfl
@[simp] theorem signal_dropcnt : (signal e b).dropcnt = b.dropcnt := rfl

end

/-! ### raise -/

section
variable (e : Event) (c : Cause) (info : BitVec 8) (b : Block)

@[simp] theorem raise_active : (raise e c info b).active = b.active := rfl
@[simp] theorem raise_tone : (raise e c info b).tone = b.tone := rfl
@[simp] theorem raise_bps : (raise e c info b).bps = b.bps := rfl
@[simp] theorem raise_sps : (raise e c info b).sps = b.sps := rfl
@[simp] theorem raise_srcRate : (raise e c info b).srcRate = b.srcRate := rfl
@[simp] theorem raise_si : (raise e c info b).si = b.si := rfl
@[simp] theorem raise_synBusy : (raise e c info b).synBusy = b.synBusy := rfl
@[simp] theorem raise_synSym : (raise e c info b).synSym = b.synSym := rfl
@[simp] theorem raise_synN : (raise e c info b).synN = b.synN := rfl
@[simp] theorem raise_synHalt : (raise e c info b).synHalt = b.synHalt := rfl
@[simp] theorem raise_acc : (raise e c info b).acc = b.acc := rfl
@[simp] theorem raise_detFill : (raise e c info b).detFill = b.detFill := rfl
@[simp] theorem raise_so : (raise e c info b).so = b.so := rfl
@[simp] theorem raise_events : (raise e c info b).events = b.events ||| e.mask := rfl
@[simp] theorem raise_irqEn : (raise e c info b).irqEn = b.irqEn := rfl
@[simp] theorem raise_errCode : (raise e c info b).errCode = c.code := rfl
@[simp] theorem raise_errInfo : (raise e c info b).errInfo = info := rfl
@[simp] theorem raise_symcnt : (raise e c info b).symcnt = b.symcnt := rfl
@[simp] theorem raise_wincnt : (raise e c info b).wincnt = b.wincnt := rfl
@[simp] theorem raise_dropcnt : (raise e c info b).dropcnt = b.dropcnt := rfl

end

/-! ### clearEvents -/

section
variable (mask : BitVec 7) (b : Block)

@[simp] theorem clearEvents_active : (clearEvents mask b).active = b.active := rfl
@[simp] theorem clearEvents_tone : (clearEvents mask b).tone = b.tone := rfl
@[simp] theorem clearEvents_bps : (clearEvents mask b).bps = b.bps := rfl
@[simp] theorem clearEvents_sps : (clearEvents mask b).sps = b.sps := rfl
@[simp] theorem clearEvents_srcRate : (clearEvents mask b).srcRate = b.srcRate := rfl
@[simp] theorem clearEvents_si : (clearEvents mask b).si = b.si := rfl
@[simp] theorem clearEvents_synBusy : (clearEvents mask b).synBusy = b.synBusy := rfl
@[simp] theorem clearEvents_synSym : (clearEvents mask b).synSym = b.synSym := rfl
@[simp] theorem clearEvents_synN : (clearEvents mask b).synN = b.synN := rfl
@[simp] theorem clearEvents_synHalt : (clearEvents mask b).synHalt = b.synHalt := rfl
@[simp] theorem clearEvents_acc : (clearEvents mask b).acc = b.acc := rfl
@[simp] theorem clearEvents_detFill : (clearEvents mask b).detFill = b.detFill := rfl
@[simp] theorem clearEvents_so : (clearEvents mask b).so = b.so := rfl
@[simp] theorem clearEvents_events : (clearEvents mask b).events = b.events &&& ~~~mask := rfl
@[simp] theorem clearEvents_irqEn : (clearEvents mask b).irqEn = b.irqEn := rfl
@[simp] theorem clearEvents_errCode : (clearEvents mask b).errCode = b.errCode := rfl
@[simp] theorem clearEvents_errInfo : (clearEvents mask b).errInfo = b.errInfo := rfl
@[simp] theorem clearEvents_symcnt : (clearEvents mask b).symcnt = b.symcnt := rfl
@[simp] theorem clearEvents_wincnt : (clearEvents mask b).wincnt = b.wincnt := rfl
@[simp] theorem clearEvents_dropcnt : (clearEvents mask b).dropcnt = b.dropcnt := rfl

end

/-! ### lockedWrite -/

section
variable (addr : BitVec 9) (b : Block)

@[simp] theorem lockedWrite_active : (lockedWrite addr b).active = b.active := rfl
@[simp] theorem lockedWrite_tone : (lockedWrite addr b).tone = b.tone := rfl
@[simp] theorem lockedWrite_bps : (lockedWrite addr b).bps = b.bps := rfl
@[simp] theorem lockedWrite_sps : (lockedWrite addr b).sps = b.sps := rfl
@[simp] theorem lockedWrite_srcRate : (lockedWrite addr b).srcRate = b.srcRate := rfl
@[simp] theorem lockedWrite_si : (lockedWrite addr b).si = b.si := rfl
@[simp] theorem lockedWrite_synBusy : (lockedWrite addr b).synBusy = b.synBusy := rfl
@[simp] theorem lockedWrite_synSym : (lockedWrite addr b).synSym = b.synSym := rfl
@[simp] theorem lockedWrite_synN : (lockedWrite addr b).synN = b.synN := rfl
@[simp] theorem lockedWrite_synHalt : (lockedWrite addr b).synHalt = b.synHalt := rfl
@[simp] theorem lockedWrite_acc : (lockedWrite addr b).acc = b.acc := rfl
@[simp] theorem lockedWrite_detFill : (lockedWrite addr b).detFill = b.detFill := rfl
@[simp] theorem lockedWrite_so : (lockedWrite addr b).so = b.so := rfl
@[simp] theorem lockedWrite_events : (lockedWrite addr b).events = b.events ||| Event.errAccess.mask := rfl
@[simp] theorem lockedWrite_irqEn : (lockedWrite addr b).irqEn = b.irqEn := rfl
@[simp] theorem lockedWrite_errCode : (lockedWrite addr b).errCode = Cause.lockedWrite.code := rfl
@[simp] theorem lockedWrite_errInfo : (lockedWrite addr b).errInfo = wordIndex addr := rfl
@[simp] theorem lockedWrite_symcnt : (lockedWrite addr b).symcnt = b.symcnt := rfl
@[simp] theorem lockedWrite_wincnt : (lockedWrite addr b).wincnt = b.wincnt := rfl
@[simp] theorem lockedWrite_dropcnt : (lockedWrite addr b).dropcnt = b.dropcnt := rfl

end

/-! ### clearWindow -/

section
variable (b : Block)

@[simp] theorem clearWindow_active : (clearWindow b).active = b.active := rfl
@[simp] theorem clearWindow_tone : (clearWindow b).tone = b.tone := rfl
@[simp] theorem clearWindow_bps : (clearWindow b).bps = b.bps := rfl
@[simp] theorem clearWindow_sps : (clearWindow b).sps = b.sps := rfl
@[simp] theorem clearWindow_srcRate : (clearWindow b).srcRate = b.srcRate := rfl
@[simp] theorem clearWindow_si : (clearWindow b).si = b.si := rfl
@[simp] theorem clearWindow_synBusy : (clearWindow b).synBusy = b.synBusy := rfl
@[simp] theorem clearWindow_synSym : (clearWindow b).synSym = b.synSym := rfl
@[simp] theorem clearWindow_synN : (clearWindow b).synN = b.synN := rfl
@[simp] theorem clearWindow_synHalt : (clearWindow b).synHalt = b.synHalt := rfl
@[simp] theorem clearWindow_acc : (clearWindow b).acc = accZero := rfl
@[simp] theorem clearWindow_detFill : (clearWindow b).detFill = 0#16 := rfl
@[simp] theorem clearWindow_so : (clearWindow b).so = b.so := rfl
@[simp] theorem clearWindow_events : (clearWindow b).events = b.events := rfl
@[simp] theorem clearWindow_irqEn : (clearWindow b).irqEn = b.irqEn := rfl
@[simp] theorem clearWindow_errCode : (clearWindow b).errCode = b.errCode := rfl
@[simp] theorem clearWindow_errInfo : (clearWindow b).errInfo = b.errInfo := rfl
@[simp] theorem clearWindow_symcnt : (clearWindow b).symcnt = b.symcnt := rfl
@[simp] theorem clearWindow_wincnt : (clearWindow b).wincnt = b.wincnt := rfl
@[simp] theorem clearWindow_dropcnt : (clearWindow b).dropcnt = b.dropcnt := rfl

end

/-! ### clearTone -/

section
variable (b : Block)

@[simp] theorem clearTone_active : (clearTone b).active = b.active := rfl
@[simp] theorem clearTone_tone : (clearTone b).tone = b.tone := rfl
@[simp] theorem clearTone_bps : (clearTone b).bps = b.bps := rfl
@[simp] theorem clearTone_sps : (clearTone b).sps = b.sps := rfl
@[simp] theorem clearTone_srcRate : (clearTone b).srcRate = b.srcRate := rfl
@[simp] theorem clearTone_si : (clearTone b).si = b.si := rfl
@[simp] theorem clearTone_synBusy : (clearTone b).synBusy = false := rfl
@[simp] theorem clearTone_synSym : (clearTone b).synSym = 0#6 := rfl
@[simp] theorem clearTone_synN : (clearTone b).synN = 0#16 := rfl
@[simp] theorem clearTone_synHalt : (clearTone b).synHalt = b.synHalt := rfl
@[simp] theorem clearTone_acc : (clearTone b).acc = b.acc := rfl
@[simp] theorem clearTone_detFill : (clearTone b).detFill = b.detFill := rfl
@[simp] theorem clearTone_so : (clearTone b).so = b.so := rfl
@[simp] theorem clearTone_events : (clearTone b).events = b.events := rfl
@[simp] theorem clearTone_irqEn : (clearTone b).irqEn = b.irqEn := rfl
@[simp] theorem clearTone_errCode : (clearTone b).errCode = b.errCode := rfl
@[simp] theorem clearTone_errInfo : (clearTone b).errInfo = b.errInfo := rfl
@[simp] theorem clearTone_symcnt : (clearTone b).symcnt = b.symcnt := rfl
@[simp] theorem clearTone_wincnt : (clearTone b).wincnt = b.wincnt := rfl
@[simp] theorem clearTone_dropcnt : (clearTone b).dropcnt = b.dropcnt := rfl

end

/-! ### discardPartial -/

section
variable (b : Block)

@[simp] theorem discardPartial_active : (discardPartial b).active = b.active := rfl
@[simp] theorem discardPartial_tone : (discardPartial b).tone = b.tone := rfl
@[simp] theorem discardPartial_bps : (discardPartial b).bps = b.bps := rfl
@[simp] theorem discardPartial_sps : (discardPartial b).sps = b.sps := rfl
@[simp] theorem discardPartial_srcRate : (discardPartial b).srcRate = b.srcRate := rfl
@[simp] theorem discardPartial_si : (discardPartial b).si = b.si := rfl
@[simp] theorem discardPartial_synBusy : (discardPartial b).synBusy = b.synBusy := rfl
@[simp] theorem discardPartial_synSym : (discardPartial b).synSym = b.synSym := rfl
@[simp] theorem discardPartial_synN : (discardPartial b).synN = b.synN := rfl
@[simp] theorem discardPartial_synHalt : (discardPartial b).synHalt = b.synHalt := rfl
@[simp] theorem discardPartial_acc : (discardPartial b).acc = accZero := rfl
@[simp] theorem discardPartial_detFill : (discardPartial b).detFill = 0#16 := rfl
@[simp] theorem discardPartial_so : (discardPartial b).so = b.so := rfl
@[simp] theorem discardPartial_events : (discardPartial b).events = b.events ||| Event.detDrop.mask := rfl
@[simp] theorem discardPartial_irqEn : (discardPartial b).irqEn = b.irqEn := rfl
@[simp] theorem discardPartial_errCode : (discardPartial b).errCode = b.errCode := rfl
@[simp] theorem discardPartial_errInfo : (discardPartial b).errInfo = b.errInfo := rfl
@[simp] theorem discardPartial_symcnt : (discardPartial b).symcnt = b.symcnt := rfl
@[simp] theorem discardPartial_wincnt : (discardPartial b).wincnt = b.wincnt := rfl
@[simp] theorem discardPartial_dropcnt : (discardPartial b).dropcnt = b.dropcnt + b.detFill.zeroExtend 32 := rfl

end

/-! ### windowComplete -/

section
variable (b : Block)

@[simp] theorem windowComplete_active : (windowComplete b).active = b.active := rfl
@[simp] theorem windowComplete_tone : (windowComplete b).tone = b.tone := rfl
@[simp] theorem windowComplete_bps : (windowComplete b).bps = b.bps := rfl
@[simp] theorem windowComplete_sps : (windowComplete b).sps = b.sps := rfl
@[simp] theorem windowComplete_srcRate : (windowComplete b).srcRate = b.srcRate := rfl
@[simp] theorem windowComplete_si : (windowComplete b).si = b.si := rfl
@[simp] theorem windowComplete_synBusy : (windowComplete b).synBusy = b.synBusy := rfl
@[simp] theorem windowComplete_synSym : (windowComplete b).synSym = b.synSym := rfl
@[simp] theorem windowComplete_synN : (windowComplete b).synN = b.synN := rfl
@[simp] theorem windowComplete_synHalt : (windowComplete b).synHalt = b.synHalt := rfl
@[simp] theorem windowComplete_acc : (windowComplete b).acc = accZero := rfl
@[simp] theorem windowComplete_detFill : (windowComplete b).detFill = 0#16 := rfl
@[simp] theorem windowComplete_so : (windowComplete b).so = b.so ++ [BitVec.ofNat 6 (argmaxLowest (accAt b) (alphabet b))] := rfl
@[simp] theorem windowComplete_events : (windowComplete b).events = b.events ||| Event.detSym.mask := rfl
@[simp] theorem windowComplete_irqEn : (windowComplete b).irqEn = b.irqEn := rfl
@[simp] theorem windowComplete_errCode : (windowComplete b).errCode = b.errCode := rfl
@[simp] theorem windowComplete_errInfo : (windowComplete b).errInfo = b.errInfo := rfl
@[simp] theorem windowComplete_symcnt : (windowComplete b).symcnt = b.symcnt := rfl
@[simp] theorem windowComplete_wincnt : (windowComplete b).wincnt = b.wincnt + 1#32 := rfl
@[simp] theorem windowComplete_dropcnt : (windowComplete b).dropcnt = b.dropcnt := rfl

end

/-! ### accumulate -/

section
variable (x : Int) (b : Block)

@[simp] theorem accumulate_active : (accumulate x b).active = b.active := rfl
@[simp] theorem accumulate_tone : (accumulate x b).tone = b.tone := rfl
@[simp] theorem accumulate_bps : (accumulate x b).bps = b.bps := rfl
@[simp] theorem accumulate_sps : (accumulate x b).sps = b.sps := rfl
@[simp] theorem accumulate_srcRate : (accumulate x b).srcRate = b.srcRate := rfl
@[simp] theorem accumulate_si : (accumulate x b).si = b.si := rfl
@[simp] theorem accumulate_synBusy : (accumulate x b).synBusy = b.synBusy := rfl
@[simp] theorem accumulate_synSym : (accumulate x b).synSym = b.synSym := rfl
@[simp] theorem accumulate_synN : (accumulate x b).synN = b.synN := rfl
@[simp] theorem accumulate_synHalt : (accumulate x b).synHalt = b.synHalt := rfl
@[simp] theorem accumulate_acc : (accumulate x b).acc = accOf fun s =>
      if s < alphabet b then accAt b s + x * wave (toneAt b s) b.detFill.toNat else accAt b s := rfl
@[simp] theorem accumulate_detFill : (accumulate x b).detFill = b.detFill + 1#16 := rfl
@[simp] theorem accumulate_so : (accumulate x b).so = b.so := rfl
@[simp] theorem accumulate_events : (accumulate x b).events = b.events := rfl
@[simp] theorem accumulate_irqEn : (accumulate x b).irqEn = b.irqEn := rfl
@[simp] theorem accumulate_errCode : (accumulate x b).errCode = b.errCode := rfl
@[simp] theorem accumulate_errInfo : (accumulate x b).errInfo = b.errInfo := rfl
@[simp] theorem accumulate_symcnt : (accumulate x b).symcnt = b.symcnt := rfl
@[simp] theorem accumulate_wincnt : (accumulate x b).wincnt = b.wincnt := rfl
@[simp] theorem accumulate_dropcnt : (accumulate x b).dropcnt = b.dropcnt := rfl

end

/-! ### symInBlock -/

section
variable (v : Byte) (b : Block)

@[simp] theorem symInBlock_active : (symInBlock v b).active = b.active := rfl
@[simp] theorem symInBlock_tone : (symInBlock v b).tone = b.tone := rfl
@[simp] theorem symInBlock_bps : (symInBlock v b).bps = b.bps := rfl
@[simp] theorem symInBlock_sps : (symInBlock v b).sps = b.sps := rfl
@[simp] theorem symInBlock_srcRate : (symInBlock v b).srcRate = b.srcRate := rfl
@[simp] theorem symInBlock_si : (symInBlock v b).si = b.si ++ [v] := rfl
@[simp] theorem symInBlock_synBusy : (symInBlock v b).synBusy = b.synBusy := rfl
@[simp] theorem symInBlock_synSym : (symInBlock v b).synSym = b.synSym := rfl
@[simp] theorem symInBlock_synN : (symInBlock v b).synN = b.synN := rfl
@[simp] theorem symInBlock_synHalt : (symInBlock v b).synHalt = b.synHalt := rfl
@[simp] theorem symInBlock_acc : (symInBlock v b).acc = b.acc := rfl
@[simp] theorem symInBlock_detFill : (symInBlock v b).detFill = b.detFill := rfl
@[simp] theorem symInBlock_so : (symInBlock v b).so = b.so := rfl
@[simp] theorem symInBlock_events : (symInBlock v b).events = b.events := rfl
@[simp] theorem symInBlock_irqEn : (symInBlock v b).irqEn = b.irqEn := rfl
@[simp] theorem symInBlock_errCode : (symInBlock v b).errCode = b.errCode := rfl
@[simp] theorem symInBlock_errInfo : (symInBlock v b).errInfo = b.errInfo := rfl
@[simp] theorem symInBlock_symcnt : (symInBlock v b).symcnt = b.symcnt := rfl
@[simp] theorem symInBlock_wincnt : (symInBlock v b).wincnt = b.wincnt := rfl
@[simp] theorem symInBlock_dropcnt : (symInBlock v b).dropcnt = b.dropcnt := rfl

end

/-! ### startSession -/

section
variable (b : Block)

@[simp] theorem startSession_active : (startSession b).active = true := by
  unfold startSession; dsimp only; split <;> rfl
@[simp] theorem startSession_tone : (startSession b).tone = b.tone := by
  unfold startSession; dsimp only; split <;> rfl
@[simp] theorem startSession_bps : (startSession b).bps = b.bps := by
  unfold startSession; dsimp only; split <;> rfl
@[simp] theorem startSession_sps : (startSession b).sps = b.sps := by
  unfold startSession; dsimp only; split <;> rfl
@[simp] theorem startSession_srcRate : (startSession b).srcRate = b.srcRate := by
  unfold startSession; dsimp only; split <;> rfl
@[simp] theorem startSession_si : (startSession b).si = [] := by
  unfold startSession; dsimp only; split <;> rfl
@[simp] theorem startSession_synBusy : (startSession b).synBusy = false := by
  unfold startSession; dsimp only; split <;> rfl
@[simp] theorem startSession_synSym : (startSession b).synSym = 0#6 := by
  unfold startSession; dsimp only; split <;> rfl
@[simp] theorem startSession_synN : (startSession b).synN = 0#16 := by
  unfold startSession; dsimp only; split <;> rfl
@[simp] theorem startSession_synHalt : (startSession b).synHalt = false := by
  unfold startSession; dsimp only; split <;> rfl
@[simp] theorem startSession_acc : (startSession b).acc = accZero := by
  unfold startSession; dsimp only; split <;> rfl
@[simp] theorem startSession_detFill : (startSession b).detFill = 0#16 := by
  unfold startSession; dsimp only; split <;> rfl
@[simp] theorem startSession_so : (startSession b).so = [] := by
  unfold startSession; dsimp only; split <;> rfl
@[simp] theorem startSession_events : (startSession b).events = if b.srcRate = 22050#32 then b.events else b.events ||| Event.warnSrmm.mask := by
  unfold startSession; dsimp only; split <;> rfl
@[simp] theorem startSession_irqEn : (startSession b).irqEn = b.irqEn := by
  unfold startSession; dsimp only; split <;> rfl
@[simp] theorem startSession_errCode : (startSession b).errCode = b.errCode := by
  unfold startSession; dsimp only; split <;> rfl
@[simp] theorem startSession_errInfo : (startSession b).errInfo = b.errInfo := by
  unfold startSession; dsimp only; split <;> rfl
@[simp] theorem startSession_symcnt : (startSession b).symcnt = 0#32 := by
  unfold startSession; dsimp only; split <;> rfl
@[simp] theorem startSession_wincnt : (startSession b).wincnt = 0#32 := by
  unfold startSession; dsimp only; split <;> rfl
@[simp] theorem startSession_dropcnt : (startSession b).dropcnt = 0#32 := by
  unfold startSession; dsimp only; split <;> rfl

end

/-! ### stopBlock -/

section
variable (b : Block)

@[simp] theorem stopBlock_active : (stopBlock b).active = false := by
  unfold stopBlock; dsimp only; split <;> rfl
@[simp] theorem stopBlock_tone : (stopBlock b).tone = b.tone := by
  unfold stopBlock; dsimp only; split <;> rfl
@[simp] theorem stopBlock_bps : (stopBlock b).bps = b.bps := by
  unfold stopBlock; dsimp only; split <;> rfl
@[simp] theorem stopBlock_sps : (stopBlock b).sps = b.sps := by
  unfold stopBlock; dsimp only; split <;> rfl
@[simp] theorem stopBlock_srcRate : (stopBlock b).srcRate = b.srcRate := by
  unfold stopBlock; dsimp only; split <;> rfl
@[simp] theorem stopBlock_si : (stopBlock b).si = [] := by
  unfold stopBlock; dsimp only; split <;> rfl
@[simp] theorem stopBlock_synBusy : (stopBlock b).synBusy = false := by
  unfold stopBlock; dsimp only; split <;> rfl
@[simp] theorem stopBlock_synSym : (stopBlock b).synSym = 0#6 := by
  unfold stopBlock; dsimp only; split <;> rfl
@[simp] theorem stopBlock_synN : (stopBlock b).synN = 0#16 := by
  unfold stopBlock; dsimp only; split <;> rfl
@[simp] theorem stopBlock_synHalt : (stopBlock b).synHalt = false := by
  unfold stopBlock; dsimp only; split <;> rfl
@[simp] theorem stopBlock_acc : (stopBlock b).acc = accZero := by
  unfold stopBlock; dsimp only; split <;> rfl
@[simp] theorem stopBlock_detFill : (stopBlock b).detFill = 0#16 := by
  unfold stopBlock; dsimp only; split <;> rfl
@[simp] theorem stopBlock_so : (stopBlock b).so = b.so := by
  unfold stopBlock; dsimp only; split <;> rfl
@[simp] theorem stopBlock_events : (stopBlock b).events = if b.detFill = 0#16 then b.events else b.events ||| Event.detDrop.mask := by
  unfold stopBlock; dsimp only; split <;> rfl
@[simp] theorem stopBlock_irqEn : (stopBlock b).irqEn = b.irqEn := by
  unfold stopBlock; dsimp only; split <;> rfl
@[simp] theorem stopBlock_errCode : (stopBlock b).errCode = b.errCode := by
  unfold stopBlock; dsimp only; split <;> rfl
@[simp] theorem stopBlock_errInfo : (stopBlock b).errInfo = b.errInfo := by
  unfold stopBlock; dsimp only; split <;> rfl
@[simp] theorem stopBlock_symcnt : (stopBlock b).symcnt = b.symcnt := by
  unfold stopBlock; dsimp only; split <;> rfl
@[simp] theorem stopBlock_wincnt : (stopBlock b).wincnt = b.wincnt := by
  unfold stopBlock; dsimp only; split <;> rfl
@[simp] theorem stopBlock_dropcnt : (stopBlock b).dropcnt = b.dropcnt + b.detFill.zeroExtend 32 := by
  unfold stopBlock; dsimp only; split <;> simp_all

end

/-! ### The 64-entry arrays -/

theorem laneD_of_lt {α : Type} (d : α) (v : Lanes α) {s : Nat} (h : s < 64) : laneD d v s = v[s] :=
  dif_pos h

theorem laneD_of_ge {α : Type} (d : α) (v : Lanes α) {s : Nat} (h : 64 ≤ s) : laneD d v s = d :=
  dif_neg (by omega)

/-- Two arrays that agree on every entry are equal. -/
theorem lanes_ext {α : Type} (d : α) {v w : Lanes α} (h : ∀ s < 64, laneD d v s = laneD d w s) :
    v = w := by
  apply Vector.ext
  intro s hs
  simpa [laneD_of_lt, hs] using h s hs

theorem laneD_accOf (f : Nat → Int) (s : Nat) : laneD 0 (accOf f) s = if s < 64 then f s else 0 := by
  unfold laneD; split <;> simp [accOf]

@[simp] theorem laneD_accZero (s : Nat) : laneD 0 accZero s = 0 := by
  unfold laneD; split <;> simp [accZero]

theorem laneD_setTone (t : Lanes Word) (i : BitVec 6) (w : Word) (s : Nat) :
    laneD 0#32 (setTone t i w) s = if i.toNat = s then w else laneD 0#32 t s := by
  have := i.isLt
  unfold laneD setTone
  split
  · rw [Vector.getElem_set]
  · rw [if_neg (by omega)]

@[simp] theorem accAt_clearWindow (b : Block) (s : Nat) : accAt (clearWindow b) s = 0 :=
  laneD_accZero s

theorem accAt_accumulate (x : Int) (b : Block) {s : Nat} (h : s < 64) :
    accAt (accumulate x b) s =
      if s < alphabet b then accAt b s + x * wave (toneAt b s) b.detFill.toNat else accAt b s := by
  rw [accAt, accumulate_acc, laneD_accOf, if_pos h]

/-- `accumulate` leaves what a lane's reference depends on. -/
@[simp] theorem toneAt_accumulate (x : Int) (b : Block) (s : Nat) :
    toneAt (accumulate x b) s = toneAt b s := by
  simp only [toneAt, accumulate_tone]

@[simp] theorem alphabet_accumulate (x : Int) (b : Block) :
    alphabet (accumulate x b) = alphabet b := by
  simp only [alphabet, accumulate_bps]

theorem alphabet_pos (b : Block) : 0 < alphabet b := Nat.two_pow_pos _

/-- A legal BPS gives an alphabet inside the table (R8). -/
theorem alphabet_le (b : Block) (h : b.bps.toNat ≤ 6) : alphabet b ≤ 64 :=
  Nat.pow_le_pow_right (n := 2) (by omega) h

end Sys2Proof.Machine
end

