-- ==== Sys2Proof/Laws/Exec.lean ====
section
/-! SUPPORT. What each shared operation and each step can do, said once: the shape of every next state, the
cases of the engines' steps, and the inversion of `step`. -/

namespace Sys2Proof.Machine

open Sys2Proof

/-! ### The three bus replies -/

theorem readReply_next {r : Word} {s t : State} (h : readReply r s = .next t) :
    t = { s with responses := s.responses ++ [.read r] } := by
  cases h; rfl

theorem writeReply_next {f : Block → Block} {s t : State} (h : writeReply f s = .next t) :
    t = { s with blk := f s.blk, responses := s.responses ++ [.written] } := by
  cases h; rfl

theorem errorReply_next {s t : State} (h : errorReply s = .next t) :
    t = { s with responses := s.responses ++ [.busError] } := by
  cases h; rfl

/-! ### The block after each operation -/

/-- What an operation does to the block alone, with FIFO depths `d`. -/
def blockAfter (d : Config.Depths) (i : Instr) (b : Block) : Block :=
  match i with
  | .start => startBlock b
  | .stop => stopBlock b
  | .flush => flushBlock b
  | .cmdIllegal w => raise .errAccess .cmdIllegal (opField w) b
  | .wrCfg w => writeRwl 0x010#9 (fun b => { b with bps := bpsField w }) b
  | .wrSps w => writeRwl 0x014#9 (fun b => { b with sps := spsField w }) b
  | .wrSrcRate w => writeRwl 0x018#9 (fun b => { b with srcRate := w }) b
  | .wrTone i w => writeRwl (toneOffset i) (fun b => { b with tone := setTone b.tone i w }) b
  | .wrEvents w => clearEvents (eventField w) b
  | .wrIrqEn w => { b with irqEn := eventField w }
  | .symIn v => if symInReady d b then symInBlock v b else b
  | .smpOut => if smpOutValid b then smpOutBlock b else b
  | .smpIn x last => if smpInReady d b then smpInBlock x last b else b
  | .symOut => { b with so := b.so.tail }
  | .synLoad => if synLoadEnabled b then synLoadBlock b else b
  | .busErrorSz1 .. | .busErrorSz2 .. | .busErrorSzRsv .. => b
  | .busErrorMisalign1 .. | .busErrorMisalign2 .. | .busErrorMisalign3 .. => b
  | .nop => b
  | .rdId | .rdVersion | .rdFsHz | .rdCmd | .rdCfg | .rdSps | .rdSrcRate | .rdStatus => b
  | .rdEvents | .rdIrqEn | .rdErrInfo | .rdSynSymCnt | .rdDetWinCnt | .rdDetDropCnt => b
  | .rdDetFill | .rdTone .. | .rdReserved .. | .wrReserved .. => b
  | .wrRoId .. | .wrRoVersion .. | .wrRoFsHz .. | .wrRoStatus .. | .wrRoErrInfo .. => b
  | .wrRoSynSymCnt .. | .wrRoDetWinCnt .. | .wrRoDetDropCnt .. | .wrRoDetFill .. => b

/-- Every operation gives a next state; its block is `blockAfter`, and the FIFO depths, the lines still to
come and the scheduling choice are untouched. -/
theorem exec_next (i : Instr) (s : State) :
    ∃ t, exec i s = .next t ∧ t.blk = blockAfter s.depths i s.blk ∧ t.depths = s.depths ∧
      t.agenda = s.agenda ∧ t.synFirst = s.synFirst := by
  cases i
  case symOut =>
    simp only [exec, execSymOut, blockAfter]
    split <;> rename_i h
    · refine ⟨s, rfl, ?_, rfl, rfl, rfl⟩
      cases hb : s.blk; simp_all
    · refine ⟨_, rfl, ?_, rfl, rfl, rfl⟩
      simp [h]
  case symIn => simp only [exec, execSymIn, blockAfter]; refine ⟨_, rfl, ?_⟩; split <;> simp
  case smpIn => simp only [exec, execSmpIn, blockAfter]; refine ⟨_, rfl, ?_⟩; split <;> simp
  case smpOut => simp only [exec, execSmpOut, blockAfter]; refine ⟨_, rfl, ?_⟩; split <;> simp
  case synLoad => simp only [exec, execSynLoad, blockAfter]; refine ⟨_, rfl, ?_⟩; split <;> simp
  all_goals exact ⟨_, rfl, rfl, rfl, rfl, rfl⟩

/-- The block of a next state. -/
theorem exec_blk {i : Instr} {s t : State} (h : exec i s = .next t) :
    t.blk = blockAfter s.depths i s.blk := by
  obtain ⟨u, hu, hb, -⟩ := exec_next i s
  rw [hu] at h; cases h; exact hb

/-- No operation changes the FIFO depths (R22, R263). -/
theorem exec_depths {i : Instr} {s t : State} (h : exec i s = .next t) : t.depths = s.depths := by
  obtain ⟨u, hu, -, hd, -⟩ := exec_next i s
  rw [hu] at h; cases h; exact hd

/-- A step whose enabling term does not hold changes nothing (R10). -/
theorem exec_waits {i : Instr} {s : State} (h : enabled s.depths s.blk i = false) : exec i s = .next s := by
  cases i
  case symOut =>
    simp only [enabled, symOutValid] at h
    cases hso : s.blk.so <;> simp_all [exec, execSymOut]
  all_goals simp_all [enabled, exec, execSymIn, execSmpIn, execSmpOut, execSynLoad]

/-! ### Cases of the engines' steps -/

/-- SYN_LOAD either halts on an out-of-range symbol or starts its tone (R159). -/
theorem synLoadBlock_cons {b : Block} {v : Byte} {rest : List Byte} (h : b.si = v :: rest) :
    (alphabet b ≤ v.toNat ∧
      synLoadBlock b = raise .errSor .sor v { b with si := rest, synHalt := true }) ∨
    (v.toNat < alphabet b ∧
      synLoadBlock b =
        { b with si := rest, synSym := v.truncate 6, synN := 0#16, synBusy := true }) := by
  simp only [synLoadBlock, h, synLoadHead]
  split
  · exact .inl ⟨‹_›, rfl⟩
  · exact .inr ⟨by omega, rfl⟩

/-- M_SMP_OUT either ends the tone or advances in it (R160). -/
theorem smpOutBlock_cases (b : Block) :
    (b.synN.toNat + 1 = b.sps.toNat ∧
      smpOutBlock b = synIdleCheck (clearTone { b with symcnt := b.symcnt + 1#32 })) ∨
    (b.synN.toNat + 1 ≠ b.sps.toNat ∧ smpOutBlock b = { b with synN := b.synN + 1#16 }) := by
  unfold smpOutBlock atLastSample
  by_cases h : b.synN.toNat + 1 = b.sps.toNat <;> simp [h]

/-- SMP_IN completes a window, or discards a partial one, or leaves it open (R185). -/
theorem smpInBlock_cases (x : Sample) (last : Bool) (b : Block) :
    (b.detFill + 1#16 = b.sps ∧
      smpInBlock x last b = windowComplete (accumulate (sampleValue x) b)) ∨
    (b.detFill + 1#16 ≠ b.sps ∧ last = true ∧
      smpInBlock x last b = discardPartial (accumulate (sampleValue x) b)) ∨
    (b.detFill + 1#16 ≠ b.sps ∧ last = false ∧
      smpInBlock x last b = accumulate (sampleValue x) b) := by
  simp only [smpInBlock, accumulate_detFill, accumulate_sps]
  by_cases h : b.detFill + 1#16 = b.sps
  · simp [h]
  · cases last <;> simp [h]

/-- START is refused by the session, refused by the configuration, or accepted (R131). -/
theorem startBlock_cases (b : Block) :
    (b.active = true ∧ startBlock b = raise .errAccess .cmdState 0x01#8 b) ∨
    (b.active = false ∧ ∃ c info, validateConfig b = some (c, info) ∧
      startBlock b = raise .errCfg c info b) ∨
    (b.active = false ∧ validateConfig b = none ∧ startBlock b = startSession b) := by
  unfold startBlock
  cases h : b.active
  · cases hv : validateConfig b with
    | none => simp
    | some p => exact .inr (.inl ⟨rfl, p.1, p.2, rfl, by simp⟩)
  · simp

/-- A write to a locked register is refused in a session and stored outside one (R126). -/
theorem writeRwl_cases (addr : BitVec 9) (store : Block → Block) (b : Block) :
    (b.active = true ∧ writeRwl addr store b = lockedWrite addr b) ∨
    (b.active = false ∧ writeRwl addr store b = store b) := by
  unfold writeRwl
  cases b.active <;> simp

/-! ### The configuration check (R132) -/

theorem ftwOutOfRange_iff (w : Word) : ftwOutOfRange w = true ↔ w = 0#32 ∨ 2 ^ 31 ≤ w.toNat := by
  simp [ftwOutOfRange]

theorem firstBadFtw_eq_some (b : Block) (k : Nat) :
    firstBadFtw b = some k ↔ k < alphabet b ∧ (toneAt b k = 0#32 ∨ 2 ^ 31 ≤ (toneAt b k).toNat) ∧
      ∀ j < k, toneAt b j ≠ 0#32 ∧ (toneAt b j).toNat < 2 ^ 31 := by
  simp only [firstBadFtw, List.find?_range_eq_some, ftwOutOfRange_iff, Bool.not_eq_true', ← Bool.not_eq_true,
    List.mem_range, not_or, not_le]
  tauto

theorem firstBadFtw_eq_none (b : Block) :
    firstBadFtw b = none ↔ ∀ j < alphabet b, toneAt b j ≠ 0#32 ∧ (toneAt b j).toNat < 2 ^ 31 := by
  simp only [firstBadFtw, List.find?_eq_none, ftwOutOfRange_iff, List.mem_range, not_or, not_le]

theorem firstDupFtw_eq_some (b : Block) (k : Nat) :
    firstDupFtw b = some k ↔ k < alphabet b ∧ (∃ j < k, toneAt b j = toneAt b k) ∧
      ∀ i < k, ∀ j < i, toneAt b j ≠ toneAt b i := by
  simp [firstDupFtw, List.find?_range_eq_some]
  tauto

theorem firstDupFtw_eq_none (b : Block) :
    firstDupFtw b = none ↔ ∀ t < alphabet b, ∀ s < t, toneAt b s ≠ toneAt b t := by
  simp [firstDupFtw, List.find?_eq_none]

/-- The check with its bounds written out. -/
theorem validateConfig_eq (b : Block) : validateConfig b =
    if b.bps.toNat < 1 ∨ 6 < b.bps.toNat then some (.cfgBps, b.bps.zeroExtend 8)
    else if b.sps = 0#16 then some (.cfgSps, 0#8)
    else match firstBadFtw b with
      | some s => some (.cfgFtwRange, BitVec.ofNat 8 s)
      | none => (firstDupFtw b).map fun t => (.cfgFtwDup, BitVec.ofNat 8 t) := by
  unfold validateConfig
  cases firstDupFtw b <;> rfl

/-- The configuration check passes exactly on the configurations of R30, R31 and R41 (R132). -/
theorem validateConfig_eq_none (b : Block) : validateConfig b = none ↔ ConfigValid b := by
  have hw (w : Word) : (w ≠ 0#32 ∧ w.toNat < 2 ^ 31) ↔ 0 < w.toNat ∧ w.toNat < 2 ^ 31 := by
    constructor <;> rintro ⟨h, h'⟩ <;> exact ⟨by bv_omega, h'⟩
  rw [validateConfig_eq]
  constructor
  · intro h
    split at h
    · cases h
    split at h
    · cases h
    cases h3 : firstBadFtw b with
    | some k => simp [h3] at h
    | none =>
      simp only [h3, Option.map_eq_none_iff] at h
      exact ⟨by omega, by bv_omega, fun s hs => (hw _).1 ((firstBadFtw_eq_none b).1 h3 s hs),
        (firstDupFtw_eq_none b).1 h⟩
  · intro h
    have h1 := h.bpsLegal
    have h2 := h.spsLegal
    rw [if_neg (by omega), if_neg (by bv_omega),
      (firstBadFtw_eq_none b).2 fun s hs => (hw _).2 (h.ftwLegal s hs), (firstDupFtw_eq_none b).2 h.ftwDistinct]
    rfl

theorem bps_zeroExtend (b : Block) : b.bps.zeroExtend 8 = BitVec.ofNat 8 b.bps.toNat := by
  apply BitVec.eq_of_toNat_eq
  simp

/-- A failing check is the refusal that R233's table gives START. -/
theorem raises_of_validateConfig {b : Block} {cause : Cause} {info : BitVec 8} (ha : b.active = false)
    (h : validateConfig b = some (cause, info)) : Raises b .start cause.code info 4 := by
  rw [validateConfig_eq] at h
  by_cases h1 : b.bps.toNat < 1 ∨ 6 < b.bps.toNat
  · rw [if_pos h1] at h
    cases h
    rw [bps_zeroExtend]
    exact .cfgBps ha h1
  rw [if_neg h1] at h
  by_cases h2 : b.sps = 0#16
  · rw [if_pos h2] at h
    cases h
    exact .cfgSps ha (by omega) (by omega) h2
  rw [if_neg h2] at h
  cases h3 : firstBadFtw b with
  | some k =>
    simp only [h3] at h
    cases h
    obtain ⟨hk, hb, hf⟩ := (firstBadFtw_eq_some b k).1 h3
    exact .cfgFtwRange k ha (by omega) (by omega) h2 hk hb hf
  | none =>
    cases h4 : firstDupFtw b with
    | some k =>
      simp only [h3, h4] at h
      cases h
      obtain ⟨hk, hd, hf⟩ := (firstDupFtw_eq_some b k).1 h4
      exact .cfgFtwDup k ha (by omega) (by omega) h2 ((firstBadFtw_eq_none b).1 h3) hk hd hf
    | none => simp [h3, h4] at h

/-- What R233's table gives a START outside a session is the first failing check. -/
theorem validateConfig_of_raises {b : Block} {code : BitVec 4} {info : BitVec 8} {bit : Nat}
    (ha : b.active = false) (h : Raises b .start code info bit) :
    ∃ cause, validateConfig b = some (cause, info) ∧ code = cause.code ∧ bit = 4 := by
  rw [validateConfig_eq]
  cases h with
  | cfgBps _ h1 => exact ⟨.cfgBps, by rw [if_pos h1, bps_zeroExtend], rfl, rfl⟩
  | cfgSps _ h1 h2 h3 => exact ⟨.cfgSps, by rw [if_neg (by omega), if_pos h3], rfl, rfl⟩
  | cfgFtwRange k _ h1 h2 h3 hk hb hf =>
    exact ⟨.cfgFtwRange, by
      rw [if_neg (by omega), if_neg h3, (firstBadFtw_eq_some b k).2 ⟨hk, hb, hf⟩], rfl, rfl⟩
  | cfgFtwDup k _ h1 h2 h3 hl hk hd hf =>
    exact ⟨.cfgFtwDup, by
      rw [if_neg (by omega), if_neg h3, (firstBadFtw_eq_none b).2 hl,
        (firstDupFtw_eq_some b k).2 ⟨hk, hd, hf⟩]
      rfl, rfl, rfl⟩
  | cmdState h => simp [ha] at h

/-! ### Runs -/

/-- A run over two lists is the run over the first, then over the second. -/
theorem execAll_append {is js : List Instr} {s t : State} (h : execAll is s = .next t) :
    execAll (is ++ js) s = execAll js t := by
  induction is generalizing s with
  | nil => cases h; rfl
  | cons i is ih =>
    obtain ⟨u, hu, -⟩ := exec_next i s
    simp only [List.cons_append, execAll, hu] at h ⊢
    exact ih h

/-! ### step -/

/-- A step is the next line, enabled and taken off the agenda, or SYN_LOAD (which waits where it is not
enabled). -/
theorem step_cases (s : State) :
    (∃ o rest, s.agenda = o :: rest ∧ enabled s.depths s.blk (decode o) = true ∧
      step s = exec (decode o) { s with agenda := rest }) ∨
    step s = exec .synLoad s := by
  unfold step stepLine
  split
  · exact .inr rfl
  · cases ha : s.agenda with
    | nil => exact .inr rfl
    | cons o rest =>
      cases he : enabled s.depths s.blk (decode o)
      · right; simp [he]
      · left; exact ⟨o, rest, rfl, he, by simp [he]⟩

/-- Whatever a step does to the block is what one operation does. -/
theorem step_blk {s t : State} (h : step s = .next t) : ∃ i, t.blk = blockAfter s.depths i s.blk := by
  rcases step_cases s with ⟨o, rest, -, -, hs⟩ | hs <;> rw [hs] at h
  · exact ⟨decode o, (exec_blk h).trans rfl⟩
  · exact ⟨_, exec_blk h⟩

/-- No step changes the FIFO depths (R22, R263). -/
theorem step_depths {s t : State} (h : step s = .next t) : t.depths = s.depths := by
  rcases step_cases s with ⟨o, rest, -, -, hs⟩ | hs <;> rw [hs] at h
  · exact (exec_depths h).trans rfl
  · exact exec_depths h

/-- A line put where the next step fetches is the line that step performs, when it is enabled. -/
theorem step_withFetchWord {s : State} {nbits w : Nat} {o : Offer} (h : offerOfBits nbits w = .ok o)
    (he : enabled s.depths s.blk (decode o) = true) :
    step (s.withFetchWord nbits w) = exec (decode o) { s with synFirst := false } := by
  simp [step, stepLine, State.withFetchWord, h, he]

end Sys2Proof.Machine
end

