-- ==== Sys2Proof/Machine/HostDriver.lean ====
section
/-! DEFINITION. The codec driver of 44_host_reference.md R217 and R218 over the configuration sequence of
70_reset_and_hazards.md R265, as a program of the host that performs its lines on the machine by `step`. It is
host software (00_scope.md R5): no step of the machine calls anything here (log 14). -/

namespace Sys2Proof.Machine

open Sys2Proof

/-! ### Performing lines -/

/-- The state one step on. Every step answers a next state (log 16), so the other arms are not taken. -/
def advance (s : State) : State :=
  match step s with
  | .next t => t
  | .fault _ => s
  | .refused _ => s

/-- One line of the host or of a port, performed after the lines that still wait. The first step takes an
enabled SYN_LOAD or the line, the second what then remains (R93). DESIGN CHOICE, log 18: SYN_LOAD goes first
where both are enabled, which R10 leaves open. -/
def performLine (s : State) (o : Offer) : State :=
  advance (advance { s with agenda := s.agenda ++ [o], synFirst := true })

/-- Several lines, in order. -/
def performLines (s : State) (lines : List Offer) : State := lines.foldl performLine s

/-- A host read of the word at an offset: the word read, and the state after. The word is
the last response, so it is this read's own where no earlier line waits; the second arm is then not taken
(log 20). -/
def readRegister (off : BitVec 9) (s : State) : Word × State :=
  let t := performLine s (busRead off)
  match t.responses.getLast? with
  | some (.read w) => (w, t)
  | _ => (0#32, t)

/-! ### Outcomes -/

/-- How a drive ends without a result. -/
inductive DriverError where
  /-- The file name does not fit the frame; "fatal, aborts encode" (R211). -/
  | metadataTooLarge
  /-- START was refused, with ERRINFO as read: the caller corrects the configuration (R265 step 8). -/
  | configRefused (errInfo : Word)
  /-- The caller does not proceed after the warning SampleRateMismatch (R218 stage 1). -/
  | declined
  /-- A port line still waits at the end: a drive stops here, where the rules let a host go on. DESIGN CHOICE,
log 20. -/
  | incomplete
  deriving DecidableEq, Repr

/-- What a drive leaves: the machine, the warning SampleRateMismatch (R218, R265 step 8), and the result. -/
structure DriveReport (α : Type) where
  state : State
  sampleRateMismatch : Bool
  result : Except DriverError α

/-! ### The configuration sequence (R265) -/

/-- Steps 2 to 6, after a STOP "if the block was already active". DESIGN CHOICE, log 20: the optional step 1 is
left out, and the host learns whether the block is active by reading STATUS, which the rule leaves open. -/
def configure (c : DriverConfig) (srcRate : Option Nat) (s : State) : State :=
  let (status, s) := readRegister 0x01C#9 s
  let s := if status.getLsbD 0 then performLine s (encode .stop) else s
  performLines s (configLines c srcRate)

/-- Steps 7 and 8: START, and then the refusal (EVENTS.ERR_CFG = 1, or STATUS.ACTIVE = 0) and STATUS.SRMM.
DESIGN CHOICE, log 20: step 8 says "Read EVENTS or ERRINFO" and gives no order of its reads; here EVENTS is read
first, then STATUS, and ERRINFO only after a refusal. The going back to step 7 is the caller's. -/
def startAndCheck (s : State) : DriveReport Unit :=
  let s := performLine s (encode .start)
  let (events, s) := readRegister 0x020#9 s
  let (status, s) := readRegister 0x01C#9 s
  if events.getLsbD 4 || !status.getLsbD 0 then
    let (errInfo, s) := readRegister 0x028#9 s
    { state := s, sampleRateMismatch := status.getLsbD 4, result := .error (.configRefused errInfo) }
  else { state := s, sampleRateMismatch := status.getLsbD 4, result := .ok () }

/-! ### Encoding and decoding through the block -/

/-- drive_encode (R217). The order of the port lines is an argument (R10, `isEncodeOrder`); `encodeLines` is
one. -/
def driveEncode (order : List Nat → Nat → List Offer) (c : DriverConfig) (filename : List Char)
    (file : List Byte) (s : State) : DriveReport (List Sample) :=
  match encodeSymbols c filename file with
  | .error _ => { state := s, sampleRateMismatch := false, result := .error .metadataTooLarge }
  | .ok symbols =>
    let started := startAndCheck (configure c none s)
    match started.result with
    | .error e =>
      { state := started.state, sampleRateMismatch := started.sampleRateMismatch, result := .error e }
    | .ok () =>
      let t := performLines started.state (order symbols c.sps)
      { state := t
        sampleRateMismatch := started.sampleRateMismatch
        result :=
          if t.agenda = [] then .ok (audioOfWords (t.smpWords.drop started.state.smpWords.length))
          else .error .incomplete }

/-- Stage 1 of drive_decode (R218): SRC_RATE is set with the configuration, STATUS.SRMM is read before START,
and the caller decides with `proceed`; stage 2, up to the symbols taken. DESIGN CHOICE, log 20: the mismatch is
checked once more after START, which R265 step 8 asks for, and the caller's decision is fixed beforehand. -/
def driveSymbols (order : List Sample → Nat → List Offer) (c : DriverConfig) (srcRate : Nat)
    (proceed : Bool) (audio : List Sample) (s : State) : DriveReport (List Nat) :=
  let (status, s) := readRegister 0x01C#9 (configure c (some srcRate) s)
  if status.getLsbD 4 && !proceed then
    { state := s, sampleRateMismatch := true, result := .error .declined }
  else
    let started := startAndCheck s
    match started.result with
    | .error e =>
      { state := started.state, sampleRateMismatch := started.sampleRateMismatch, result := .error e }
    | .ok () =>
      let t := performLines started.state (order audio c.sps)
      { state := t
        sampleRateMismatch := started.sampleRateMismatch
        result :=
          if t.agenda = [] then
            .ok ((t.symWords.drop started.state.symWords.length).map BitVec.toNat)
          else .error .incomplete }

/-- drive_decode (R218): the three stages. The order of the port lines is an argument (R10,
`isDecodeOrder`); `decodeLines` is one. -/
def driveDecode (order : List Sample → Nat → List Offer) (c : DriverConfig) (srcRate : Nat)
    (proceed useFallback : Bool) (defaultName : List Char) (audio : List Sample) (s : State) :
    DriveReport (List Char × List Byte) :=
  let r := driveSymbols order c srcRate proceed audio s
  { state := r.state
    sampleRateMismatch := r.sampleRateMismatch
    result := r.result.map fun symbols => decodeResult useFallback defaultName symbols c.bps }

end Sys2Proof.Machine
end

