-- ==== Sys2Proof/Laws/HostDriver.lean ====
section
/-! SUPPORT. What performing a line does, said once, and that the model's order of an encoding's lines is one
that R217 allows. -/

namespace Sys2Proof.Machine

open Sys2Proof

/-- `advance` is the step's next state: its other arms are not taken (log 16). -/
theorem step_advance (s : State) : step s = .next (advance s) := by
  have h : ∃ t, step s = .next t := by
    rcases step_cases s with ⟨o, rest, -, -, hs⟩ | hs <;> rw [hs]
    · obtain ⟨t, ht, -⟩ := exec_next (decode o) { s with agenda := rest }
      exact ⟨t, ht⟩
    · obtain ⟨t, ht, -⟩ := exec_next .synLoad s
      exact ⟨t, ht⟩
  obtain ⟨t, ht⟩ := h
  simp [advance, ht]

@[simp] theorem advance_depths (s : State) : (advance s).depths = s.depths :=
  step_depths (step_advance s)

@[simp] theorem performLine_depths (s : State) (o : Offer) : (performLine s o).depths = s.depths := by
  simp [performLine]

@[simp] theorem performLines_nil (s : State) : performLines s [] = s := rfl

@[simp] theorem performLines_cons (s : State) (o : Offer) (os : List Offer) :
    performLines s (o :: os) = performLines (performLine s o) os := rfl

theorem performLines_append (s : State) (os ps : List Offer) :
    performLines s (os ++ ps) = performLines (performLines s os) ps :=
  List.foldl_append

@[simp] theorem performLines_depths (s : State) (os : List Offer) :
    (performLines s os).depths = s.depths := by
  induction os generalizing s with
  | nil => rfl
  | cons o os ih => rw [performLines_cons, ih, performLine_depths]

@[simp] theorem readRegister_depths (off : BitVec 9) (s : State) :
    (readRegister off s).2.depths = s.depths := by
  unfold readRegister
  dsimp only
  split <;> simp

/-- Offering each symbol and then taking its SPS words is an order that R217 allows (log 18). -/
theorem encodeLines_isEncodeOrder (symbols : List Nat) (sps : Nat) :
    isEncodeOrder symbols sps (encodeLines symbols sps) = true := by
  simp only [isEncodeOrder, Bool.and_eq_true, beq_iff_eq]
  induction symbols with
  | nil => simp [encodeLines]
  | cons x xs ih =>
    have h : encodeLines (x :: xs) sps =
        .symIn (BitVec.ofNat 8 x) :: (List.replicate sps .smpOut ++ encodeLines xs sps) := by
      simp [encodeLines]
    rw [h]
    constructor
    · simp [ih.1]
    · simp [ih.2, Nat.add_mul, Nat.add_comm]

end Sys2Proof.Machine
end

