-- ==== Sys2Proof/Laws/HostReference.lean ====
section
/-! SUPPORT. The hex dump is read back by reconstruction, whatever the case of its letters (R222). -/

namespace Sys2Proof.Machine

open Sys2Proof

@[simp] theorem hexDigit_hexChar (capital : Bool) {d : Nat} (h : d < 16) :
    hexDigit (hexChar capital d) = some d := by
  have key : ∀ (c : Bool) (d : Fin 16), hexDigit (hexChar c d) = some d.val := by decide +kernel
  exact key capital ⟨d, h⟩

/-- The digits of a text of digits are those digits. -/
theorem filterMap_hexDigit_mapIdx (capital : Nat → Bool) (digits : List Nat) (h : ∀ d ∈ digits, d < 16) :
    (digits.mapIdx fun i d => hexChar (capital i) d).filterMap hexDigit = digits := by
  induction digits generalizing capital with
  | nil => rfl
  | cons d rest ih =>
    rw [List.mapIdx_cons, List.filterMap_cons, hexDigit_hexChar _ (h d List.mem_cons_self)]
    exact congrArg (d :: ·) (ih (fun i => capital (i + 1)) fun e he => h e (List.mem_cons_of_mem d he))

theorem hexDigits_lt (payload : List Byte) : ∀ d ∈ hexDigits payload, d < 16 := by
  intro d hd
  simp only [hexDigits, List.mem_flatMap, List.mem_cons, List.not_mem_nil, or_false] at hd
  obtain ⟨b, -, rfl | rfl⟩ := hd
  · have := b.isLt
    omega
  · omega

theorem bytesOfDigits_hexDigits (payload : List Byte) : bytesOfDigits (hexDigits payload) = payload := by
  induction payload with
  | nil => rfl
  | cons b rest ih =>
    have hb : BitVec.ofNat 8 (16 * (b.toNat / 16) + b.toNat % 16) = b := by
      rw [Nat.div_add_mod, BitVec.ofNat_toNat, BitVec.setWidth_eq]
    exact congrArg₂ List.cons hb ih

/-- Reconstruction of a dump's text gives the payload (R222). -/
theorem hexReconstruct_hexText (capital : Nat → Bool) (payload : List Byte) :
    hexReconstruct (hexText capital payload) = payload := by
  rw [hexReconstruct, hexText, filterMap_hexDigit_mapIdx _ _ (hexDigits_lt payload), bytesOfDigits_hexDigits]

theorem hexReconstruct_hexDump (payload : List Byte) : hexReconstruct (hexDump payload) = payload :=
  hexReconstruct_hexText _ payload

end Sys2Proof.Machine
end

