-- ==== Sys2Proof/Laws/PerInstr.lean ====
section
/-! SUPPORT. Decode and encode agree, one lemma per operation (30_encoding.md R81 to R90, R95). -/

namespace Sys2Proof.Laws

open Sys2Proof

-- One theorem at a time: many evaluations at once would ask for many threads.
set_option Elab.async false

/-- The line that encodes a well-formed operation decodes to that operation. -/
def RoundTrip.Statement (i : Instr) : Prop := WellFormed i → decode (encode i) = i

theorem RoundTrip.busErrorSz1 (we : Bool) (addr : BitVec 9) (wdata : Word) : RoundTrip.Statement (.busErrorSz1 we addr wdata) :=
  fun _ => by
  simp only [encode, decode_mkTv]; rfl

theorem RoundTrip.busErrorSz2 (we : Bool) (addr : BitVec 9) (wdata : Word) : RoundTrip.Statement (.busErrorSz2 we addr wdata) :=
  fun _ => by
  simp only [encode, decode_mkTv]; rfl

theorem RoundTrip.busErrorSzRsv (we : Bool) (addr : BitVec 9) (wdata : Word) : RoundTrip.Statement (.busErrorSzRsv we addr wdata) :=
  fun _ => by
  simp only [encode, decode_mkTv]; rfl

theorem RoundTrip.busErrorMisalign1 (we : Bool) (word : BitVec 7) (wdata : Word) : RoundTrip.Statement (.busErrorMisalign1 we word wdata) :=
  fun _ => by
  simp only [encode, busWord, decode_mkTv]; simp [decodeFields]

theorem RoundTrip.busErrorMisalign2 (we : Bool) (word : BitVec 7) (wdata : Word) : RoundTrip.Statement (.busErrorMisalign2 we word wdata) :=
  fun _ => by
  simp only [encode, busWord, decode_mkTv]; simp [decodeFields]

theorem RoundTrip.busErrorMisalign3 (we : Bool) (word : BitVec 7) (wdata : Word) : RoundTrip.Statement (.busErrorMisalign3 we word wdata) :=
  fun _ => by
  simp only [encode, busWord, decode_mkTv]; simp [decodeFields]

theorem RoundTrip.nop : RoundTrip.Statement .nop :=
  fun _ => by decide

theorem RoundTrip.start : RoundTrip.Statement .start :=
  fun _ => by decide

theorem RoundTrip.stop : RoundTrip.Statement .stop :=
  fun _ => by decide

theorem RoundTrip.flush : RoundTrip.Statement .flush :=
  fun _ => by decide

theorem RoundTrip.cmdIllegal (w : Word) : RoundTrip.Statement (.cmdIllegal w) :=
  fun h => by
  rw [encode, decode_busWord_aligned _ _ _ (by decide)]
  exact decodeCommand_illegal w (of_decide_eq_true h)

theorem RoundTrip.rdId : RoundTrip.Statement .rdId :=
  fun _ => by decide

theorem RoundTrip.wrRoId (wdata : Word) : RoundTrip.Statement (.wrRoId wdata) :=
  fun _ => by
  rw [encode, decode_busWord_aligned _ _ _ (by decide)]; rfl

theorem RoundTrip.rdVersion : RoundTrip.Statement .rdVersion :=
  fun _ => by decide

theorem RoundTrip.wrRoVersion (wdata : Word) : RoundTrip.Statement (.wrRoVersion wdata) :=
  fun _ => by
  rw [encode, decode_busWord_aligned _ _ _ (by decide)]; rfl

theorem RoundTrip.rdFsHz : RoundTrip.Statement .rdFsHz :=
  fun _ => by decide

theorem RoundTrip.wrRoFsHz (wdata : Word) : RoundTrip.Statement (.wrRoFsHz wdata) :=
  fun _ => by
  rw [encode, decode_busWord_aligned _ _ _ (by decide)]; rfl

theorem RoundTrip.rdCmd : RoundTrip.Statement .rdCmd :=
  fun _ => by decide

theorem RoundTrip.rdCfg : RoundTrip.Statement .rdCfg :=
  fun _ => by decide

theorem RoundTrip.wrCfg (wdata : Word) : RoundTrip.Statement (.wrCfg wdata) :=
  fun _ => by
  rw [encode, decode_busWord_aligned _ _ _ (by decide)]; rfl

theorem RoundTrip.rdSps : RoundTrip.Statement .rdSps :=
  fun _ => by decide

theorem RoundTrip.wrSps (wdata : Word) : RoundTrip.Statement (.wrSps wdata) :=
  fun _ => by
  rw [encode, decode_busWord_aligned _ _ _ (by decide)]; rfl

theorem RoundTrip.rdSrcRate : RoundTrip.Statement .rdSrcRate :=
  fun _ => by decide

theorem RoundTrip.wrSrcRate (wdata : Word) : RoundTrip.Statement (.wrSrcRate wdata) :=
  fun _ => by
  rw [encode, decode_busWord_aligned _ _ _ (by decide)]; rfl

theorem RoundTrip.rdStatus : RoundTrip.Statement .rdStatus :=
  fun _ => by decide

theorem RoundTrip.wrRoStatus (wdata : Word) : RoundTrip.Statement (.wrRoStatus wdata) :=
  fun _ => by
  rw [encode, decode_busWord_aligned _ _ _ (by decide)]; rfl

theorem RoundTrip.rdEvents : RoundTrip.Statement .rdEvents :=
  fun _ => by decide

theorem RoundTrip.wrEvents (wdata : Word) : RoundTrip.Statement (.wrEvents wdata) :=
  fun _ => by
  rw [encode, decode_busWord_aligned _ _ _ (by decide)]; rfl

theorem RoundTrip.rdIrqEn : RoundTrip.Statement .rdIrqEn :=
  fun _ => by decide

theorem RoundTrip.wrIrqEn (wdata : Word) : RoundTrip.Statement (.wrIrqEn wdata) :=
  fun _ => by
  rw [encode, decode_busWord_aligned _ _ _ (by decide)]; rfl

theorem RoundTrip.rdErrInfo : RoundTrip.Statement .rdErrInfo :=
  fun _ => by decide

theorem RoundTrip.wrRoErrInfo (wdata : Word) : RoundTrip.Statement (.wrRoErrInfo wdata) :=
  fun _ => by
  rw [encode, decode_busWord_aligned _ _ _ (by decide)]; rfl

theorem RoundTrip.rdSynSymCnt : RoundTrip.Statement .rdSynSymCnt :=
  fun _ => by decide

theorem RoundTrip.wrRoSynSymCnt (wdata : Word) : RoundTrip.Statement (.wrRoSynSymCnt wdata) :=
  fun _ => by
  rw [encode, decode_busWord_aligned _ _ _ (by decide)]; rfl

theorem RoundTrip.rdDetWinCnt : RoundTrip.Statement .rdDetWinCnt :=
  fun _ => by decide

theorem RoundTrip.wrRoDetWinCnt (wdata : Word) : RoundTrip.Statement (.wrRoDetWinCnt wdata) :=
  fun _ => by
  rw [encode, decode_busWord_aligned _ _ _ (by decide)]; rfl

theorem RoundTrip.rdDetDropCnt : RoundTrip.Statement .rdDetDropCnt :=
  fun _ => by decide

theorem RoundTrip.wrRoDetDropCnt (wdata : Word) : RoundTrip.Statement (.wrRoDetDropCnt wdata) :=
  fun _ => by
  rw [encode, decode_busWord_aligned _ _ _ (by decide)]; rfl

theorem RoundTrip.rdDetFill : RoundTrip.Statement .rdDetFill :=
  fun _ => by decide

theorem RoundTrip.wrRoDetFill (wdata : Word) : RoundTrip.Statement (.wrRoDetFill wdata) :=
  fun _ => by
  rw [encode, decode_busWord_aligned _ _ _ (by decide)]; rfl

theorem RoundTrip.rdTone (i : BitVec 6) : RoundTrip.Statement (.rdTone i) :=
  fun _ => decode_toneOffset false i 0#32

theorem RoundTrip.wrTone (i : BitVec 6) (wdata : Word) : RoundTrip.Statement (.wrTone i wdata) :=
  fun _ => decode_toneOffset true i wdata

theorem RoundTrip.rdReserved (word : BitVec 7) : RoundTrip.Statement (.rdReserved word) :=
  fun h => by
  rw [encode, busRead, decode_busWord_aligned _ _ _ (offsetOf_low word 0#2), offsetOf_word,
    decodeAligned_reserved _ _ _ (of_decide_eq_true h)]
  rfl

theorem RoundTrip.wrReserved (word : BitVec 7) (wdata : Word) : RoundTrip.Statement (.wrReserved word wdata) :=
  fun h => by
  rw [encode, decode_busWord_aligned _ _ _ (offsetOf_low word 0#2), offsetOf_word,
    decodeAligned_reserved _ _ _ (of_decide_eq_true h)]
  rfl

theorem RoundTrip.symIn (v : Byte) : RoundTrip.Statement (.symIn v) :=
  fun _ => rfl

theorem RoundTrip.smpOut : RoundTrip.Statement .smpOut :=
  fun _ => rfl

theorem RoundTrip.smpIn (sample : Sample) (last : Bool) : RoundTrip.Statement (.smpIn sample last) :=
  fun _ => by
  simp only [encode, decode, smpInWord_sample, smpInWord_last]

theorem RoundTrip.symOut : RoundTrip.Statement .symOut :=
  fun _ => rfl

theorem RoundTrip.synLoad : RoundTrip.Statement .synLoad :=
  fun _ => rfl

end Sys2Proof.Laws
end

