-- ==== Sys2Proof/Machine/Platform.lean ====
section
/-! DEFINITION. Where the block sits in a system (20_memory.md R61, R63, R68; 60_exceptions.md R236). BASE and
IRQ_TARGET are the platform's (D22, D20, I19, I20), so every definition here takes the one it needs as an
argument (log 13). -/

namespace Sys2Proof.Machine

open Sys2Proof

/-- The access widths of a host bus transaction, in bytes (R61). The reserved size code is no width; it
exists only in the vector (R82). -/
inductive AccessSize where
  | one | two | four
  deriving DecidableEq, Repr

/-- The size code SZ (R82). -/
def AccessSize.code : AccessSize → BitVec 2
  | .one => 0b00#2
  | .two => 0b01#2
  | .four => 0b10#2

/-- A host bus transaction as the system makes it: the fields of R61 with the system address. -/
structure SystemTransaction where
  /-- The byte address in the system's address map. -/
  address : Nat
  /-- A write, not a read. -/
  we : Bool
  /-- The access width. -/
  size : AccessSize
  /-- The word written, "meaningful only for writes". -/
  wdata : Word
  deriving DecidableEq, Repr

/-- `addr = system_address - BASE` (R61), none outside the block's 512 bytes (R23). -/
def blockAddr (base address : Nat) : Option (BitVec 9) :=
  if base ≤ address ∧ address < base + 512 then some (BitVec.ofNat 9 (address - base)) else none

/-- The line of a system transaction at the block, none where it does not reach the block (R61, R81). -/
def systemLine (base : Nat) (x : SystemTransaction) : Option Offer :=
  (blockAddr base x.address).map fun addr => .bus (mkTv x.we x.size.code addr x.wdata)

/-- A system transaction performed: the block sees its line only (R61). A transaction to an address outside
the block is no step of the block: DEDUCED, log 13. -/
def systemAccess (base : Nat) (x : SystemTransaction) (s : State) : Host.Outcome State Fault Refusal :=
  match systemLine base x with
  | some o => exec (decode o) s
  | none => .next s

/-- Byte lane `k` of a word as a byte-addressing host sees it: bits [8k+7:8k], little-endian (R63). -/
def byteLane (w : Word) (k : Nat) : Byte := w.extractLsb' (8 * k) 8

/-- The system byte `address`, given the word at each aligned offset of the block: "system byte BASE + a + k,
for k in 0..3, carries bits [8k+7:8k] of the word at offset a" (R63). -/
def systemByte (base : Nat) (wordAt : BitVec 9 → Word) (address : Nat) : Option Byte :=
  (blockAddr base address).map fun addr =>
    byteLane (wordAt (offsetOf (addr.extractLsb' 2 7) 0#2)) (addr.extractLsb' 0 2).toNat

/-- The level the block drives onto a platform input: that of `irq` onto IRQ_TARGET, none onto an input it
does not drive (R68, R236). How a platform names its inputs is its own. -/
def irqLevel {Input : Type} [DecidableEq Input] (irqTarget : Input) (b : Block) (input : Input) : Option Bool :=
  if input = irqTarget then some (irq b) else none

end Sys2Proof.Machine
end

