-- ==== Sys2Proof/Laws/Platform.lean ====
section
/-! SUPPORT. What a system transaction is to the block, whatever BASE and IRQ_TARGET are (R61, R63, R236). -/

namespace Sys2Proof.Machine

open Sys2Proof

/-- R61: the block sees the offset from BASE. -/
@[simp] theorem blockAddr_base_add (base : Nat) (addr : BitVec 9) :
    blockAddr base (base + addr.toNat) = some addr := by
  have := addr.isLt
  simp [blockAddr, this]

/-- The addresses that reach the block are those of its 512 bytes, each at its own offset. -/
theorem blockAddr_eq_some (base address : Nat) (addr : BitVec 9) :
    blockAddr base address = some addr ↔ address = base + addr.toNat := by
  constructor
  · intro h
    unfold blockAddr at h
    split at h
    · obtain rfl := Option.some.inj h
      rw [BitVec.toNat_ofNat, Nat.mod_eq_of_lt (by omega)]
      omega
    · cases h
  · rintro rfl
    exact blockAddr_base_add base addr

/-- R61: a transaction at BASE + addr is the block's own transaction at addr, whatever BASE is. -/
theorem systemAccess_base_add (base : Nat) (we : Bool) (size : AccessSize) (addr : BitVec 9) (wdata : Word)
    (s : State) :
    systemAccess base ⟨base + addr.toNat, we, size, wdata⟩ s =
      exec (decode (.bus (mkTv we size.code addr wdata))) s := by
  simp [systemAccess, systemLine]

/-- A transaction that does not reach the block is no step of it. -/
theorem systemAccess_outside {base : Nat} {x : SystemTransaction} (s : State)
    (h : blockAddr base x.address = none) : systemAccess base x s = .next s := by
  simp [systemAccess, systemLine, h]

/-- R63, with `a` the offset of word `word`. -/
theorem systemByte_base_add (base : Nat) (wordAt : BitVec 9 → Word) (word : BitVec 7) (k : BitVec 2) :
    systemByte base wordAt (base + (offsetOf word 0#2).toNat + k.toNat) =
      some (byteLane (wordAt (offsetOf word 0#2)) k.toNat) := by
  have key : ∀ (word : BitVec 7) (k : BitVec 2),
      (offsetOf word 0#2).toNat + k.toNat = (offsetOf word k).toNat ∧
      (offsetOf word k).extractLsb' 2 7 = word ∧ (offsetOf word k).toNat % 4 = k.toNat := by decide +kernel
  obtain ⟨h1, h2, h3⟩ := key word k
  simp [systemByte, Nat.add_assoc, h1, h2, h3]

/-- `irq` drives IRQ_TARGET and nothing else. -/
@[simp] theorem irqLevel_target {Input : Type} [DecidableEq Input] (irqTarget : Input) (b : Block) :
    irqLevel irqTarget b irqTarget = some (irq b) := if_pos rfl

theorem irqLevel_other {Input : Type} [DecidableEq Input] {irqTarget input : Input} (b : Block)
    (h : input ≠ irqTarget) : irqLevel irqTarget b input = none := if_neg h

end Sys2Proof.Machine
end

