-- ==== Sys2Proof/Tests/Slice0.lean ====
section
/-! SUPPORT. Tests. Every expected value comes from the spec: a decoded word from the formats of
30_encoding.md (R81 to R90), a result from 95_test_vectors.md (the vector's name stands by the test). At the
end, for each statement with hypotheses, a state and operands that meet them. -/

namespace Sys2Proof.Tests

open Sys2Proof Sys2Proof.Machine

-- One theorem at a time: many evaluations at once would ask for many threads.
set_option Elab.async false

/-! ### Decoding: a word of every row, written out from the spec's encoding -/

theorem test_decode_malformed :
    decodeTableWord 48 0x01C00000000 = some (.busErrorSz1 false 0x01C#9 0#32) ∧
    decodeTableWord 48 0x90400000005 = some (.busErrorSz1 true 0x104#9 5#32) ∧
    decodeTableWord 48 0x21C00000000 = some (.busErrorSz2 false 0x01C#9 0#32) ∧
    decodeTableWord 48 0x61C00000000 = some (.busErrorSzRsv false 0x01C#9 0#32) ∧
    decodeTableWord 48 0xC0D00000001 = some (.busErrorMisalign1 true 3#7 1#32) ∧
    decodeTableWord 48 0x41E00000000 = some (.busErrorMisalign2 false 7#7 0#32) ∧
    decodeTableWord 48 0x5FF00000000 = some (.busErrorMisalign3 false 127#7 0#32) := by decide

theorem test_decode_commands :
    decodeTableWord 48 0xC0C00000000 = some (.nop) ∧
    decodeTableWord 48 0xC0C00000001 = some (.start) ∧
    decodeTableWord 48 0xC0C00000002 = some (.stop) ∧
    decodeTableWord 48 0xC0C00000003 = some (.flush) ∧
    decodeTableWord 48 0xC0C00000004 = some (.cmdIllegal 4#32) ∧
    decodeTableWord 48 0xC0C00000101 = some (.cmdIllegal 0x101#32) := by decide

theorem test_decode_constant_registers :
    decodeTableWord 48 0x40000000000 = some (.rdId) ∧
    decodeTableWord 48 0xC0012345678 = some (.wrRoId 0x12345678#32) ∧
    decodeTableWord 48 0x40400000000 = some (.rdVersion) ∧
    decodeTableWord 48 0xC0400000007 = some (.wrRoVersion 7#32) ∧
    decodeTableWord 48 0x40800000000 = some (.rdFsHz) ∧
    decodeTableWord 48 0xC0800000007 = some (.wrRoFsHz 7#32) ∧
    decodeTableWord 48 0x40C00000000 = some (.rdCmd) ∧
    decodeTableWord 48 0x40C00000001 = some (.rdCmd) := by decide

theorem test_decode_configuration :
    decodeTableWord 48 0x41000000000 = some (.rdCfg) ∧
    decodeTableWord 48 0xC10FFFFFFFF = some (.wrCfg 0xFFFFFFFF#32) ∧
    decodeTableWord 48 0x41400000000 = some (.rdSps) ∧
    decodeTableWord 48 0xC1412345678 = some (.wrSps 0x12345678#32) ∧
    decodeTableWord 48 0x41800000000 = some (.rdSrcRate) ∧
    decodeTableWord 48 0xC180000AC44 = some (.wrSrcRate 44100#32) := by decide

theorem test_decode_status_and_events :
    decodeTableWord 48 0x41C00000000 = some (.rdStatus) ∧
    decodeTableWord 48 0xC1C00000001 = some (.wrRoStatus 1#32) ∧
    decodeTableWord 48 0x42000000000 = some (.rdEvents) ∧
    decodeTableWord 48 0xC2000000005 = some (.wrEvents 5#32) ∧
    decodeTableWord 48 0x42400000000 = some (.rdIrqEn) ∧
    decodeTableWord 48 0xC24FFFFFFFF = some (.wrIrqEn 0xFFFFFFFF#32) ∧
    decodeTableWord 48 0x42800000000 = some (.rdErrInfo) ∧
    decodeTableWord 48 0xC2800000001 = some (.wrRoErrInfo 1#32) := by decide

theorem test_decode_counters :
    decodeTableWord 48 0x42C00000000 = some (.rdSynSymCnt) ∧
    decodeTableWord 48 0xC2C00000001 = some (.wrRoSynSymCnt 1#32) ∧
    decodeTableWord 48 0x43000000000 = some (.rdDetWinCnt) ∧
    decodeTableWord 48 0xC3000000001 = some (.wrRoDetWinCnt 1#32) ∧
    decodeTableWord 48 0x43400000000 = some (.rdDetDropCnt) ∧
    decodeTableWord 48 0xC3400000001 = some (.wrRoDetDropCnt 1#32) ∧
    decodeTableWord 48 0x43800000000 = some (.rdDetFill) ∧
    decodeTableWord 48 0xC3800000001 = some (.wrRoDetFill 1#32) := by decide

theorem test_decode_tone_table :
    decodeTableWord 48 0x50000000000 = some (.rdTone 0#6) ∧
    decodeTableWord 48 0x5FC00000000 = some (.rdTone 63#6) ∧
    decodeTableWord 48 0xD0430000000 = some (.wrTone 1#6 0x30000000#32) ∧
    decodeTableWord 48 0xDFC7FFFFFFF = some (.wrTone 63#6 0x7FFFFFFF#32) := by decide

theorem test_decode_reserved_offsets :
    decodeTableWord 48 0x43C00000000 = some (.rdReserved 15#7) ∧
    decodeTableWord 48 0x4FC00000000 = some (.rdReserved 63#7) ∧
    decodeTableWord 48 0xC40FFFFFFFF = some (.wrReserved 16#7 0xFFFFFFFF#32) := by decide

/-- R86 to R90: S_SYM_IN is a byte; S_SMP_IN has LAST at bit 16 over the sample; no other interface takes a
word. -/
theorem test_decode_ports :
    decodeTableWord 8 0x07 = some (.symIn 7#8) ∧ decodeTableWord 24 0x1A57E = some (.smpIn 0xA57E#16 true) ∧
    decodeTableWord 24 0x08001 = some (.smpIn 0x8001#16 false) ∧ decodeTableWord 0 0 = some .synLoad ∧
    decode .smpOut = .smpOut ∧ decode .symOut = .symOut ∧ decodeTableWord 24 0x20000 = none ∧
    decodeTableWord 16 0 = none := by decide

/-- The lines of programs P1 and P2 encode to the words the spec prints beside them. -/
theorem test_encode_words :
    encode .start = .bus 0xC0C00000001#44 ∧ encode (.wrSrcRate 44100#32) = .bus 0xC180000AC44#44 ∧
    encode (.wrTone 1#6 0x30000000#32) = .bus 0xD0430000000#44 ∧ encode .rdStatus = .bus 0x41C00000000#44 ∧
    encode (.busErrorMisalign2 false 7#7 0#32) = .bus 0x41E00000000#44 ∧
    encode (.smpIn 0xA57E#16 true) = .smpIn 0x1A57E#17 := by decide

/-! ### Well-formedness: each check refuses an ill-formed term -/

theorem test_ill_formed_command : wellFormed (.cmdIllegal 3#32) = false ∧ wellFormed (.cmdIllegal 0#32) = false := by
  decide
theorem test_ill_formed_reserved_read :
    wellFormed (.rdReserved 14#7) = false ∧ wellFormed (.rdReserved 64#7) = false := by decide
theorem test_ill_formed_reserved_write :
    wellFormed (.wrReserved 14#7 0#32) = false ∧ wellFormed (.wrReserved 64#7 0#32) = false := by decide

/-! ### SINE_ROM and the waveform function -/

/-- V-ROM-02. -/
theorem test_rom_spot_values :
    [0, 1, 2, 3, 256, 341, 512, 683, 1023, 1024, 1025, 1536, 2047, 2048, 2049, 3072, 4095].map sineRom =
      [0, 50, 101, 151, 12539, 16369, 23170, 28385, 32767, 32767, 32767, 23170, 50, 0, -50, -32767, -50] := by
  decide +kernel

/-- R150: the spot values that V-ROM-02 does not hold. -/
theorem test_rom_more_spots : [31, 128, 768].map sineRom = [1558, 6393, 30273] := by decide +kernel

/-- The sum of `f` over the 2^level entries from entry `k` on. -/
def romSum (f : Int → Int) : Nat → Nat → Int
  | 0, k => f (sineRom k)
  | level + 1, k => romSum f level k + romSum f level (k + 2 ^ level)

theorem romSum_eq_sum (f : Int → Int) (level k : Nat) :
    romSum f level k = ∑ j ∈ Finset.range (2 ^ level), f (sineRom (k + j)) := by
  induction level generalizing k with
  | zero => simp [romSum]
  | succ level ih =>
    rw [romSum, ih, ih, pow_succ, mul_two, Finset.sum_range_add]
    simp only [Nat.add_assoc]

/-- The sum of `f` over the whole ROM, by halves. -/
theorem sum_rom (f : Int → Int) : ∑ k ∈ Finset.range 4096, f (sineRom k) = romSum f 12 0 := by
  simp [romSum_eq_sum]

/-- V-ROM-01: the sum of the entries. -/
theorem test_rom_sum : ∑ k ∈ Finset.range 4096, sineRom k = 0 :=
  (sum_rom id).trans (by decide +kernel)

/-- V-ROM-01: the sum of the squares. -/
theorem test_rom_sum_of_squares : ∑ k ∈ Finset.range 4096, sineRom k * sineRom k = 2198888097478 :=
  (sum_rom fun v => v * v).trans (by decide +kernel)

/-- V-ROM-01: the sum of the absolute values. -/
theorem test_rom_sum_of_absolute_values : ∑ k ∈ Finset.range 4096, (sineRom k).natAbs = 85443026 :=
  Nat.cast_injective (R := Int) <| by
    rw [Nat.cast_sum]
    exact (sum_rom fun v => v.natAbs).trans (by decide +kernel)

/-- One bit of the CRC-32 of V-ROM-01 (zlib's polynomial). -/
def crcBit (c : Nat) : Nat := if c % 2 = 1 then (c / 2) ^^^ 0xEDB88320 else c / 2

/-- `k c`, with `c` evaluated first. -/
def force (c : Nat) (k : Nat → Nat) : Nat :=
  match c with
  | 0 => k 0
  | n + 1 => k (n + 1)

/-- The CRC after one more byte `x`. -/
def crcByte (c x : Nat) : Nat :=
  [(), (), (), (), (), (), (), ()].foldr (fun _ k c => force (crcBit c) k) id (c ^^^ x)

/-- The CRC over the 2^level entries from entry `k` on, each as a little-endian 16-bit word. -/
def romCrc : Nat → Nat → Nat → Nat
  | 0, k, c =>
    force (sineRom k % 65536).toNat fun v => force (crcByte c (v % 256)) fun c => crcByte c (v / 256)
  | level + 1, k, c => force (romCrc level k c) fun c => romCrc level (k + 2 ^ level) c

/-- V-ROM-01: the CRC-32 of all 4096 entries, which pins every one of them. -/
theorem test_rom_crc : romCrc 12 0 0xFFFFFFFF ^^^ 0xFFFFFFFF = 0x12C33DEC := by decide +kernel

/-- V-SYN-01, V-SYN-05, V-SYN-10, V-SYN-11. -/
theorem test_wave_values :
    toneWave 0x20000000#32 8 = [0, 23170, 32767, 23170, 0, -23170, -32767, -23170] ∧
    toneWave 0x7FFFFFFF#32 8 = [0, 50, -50, 50, -50, 50, -50, 50] ∧
    toneWave 0x7C000000#32 8 = [0, 3212, -6393, 9512, -12539, 15446, -18204, 20787] ∧
    toneWave 0xFFFFFFFF#32 8 = [0, -50, -50, -50, -50, -50, -50, -50] := by decide +kernel

/-! ### Small states -/

/-- Table T4 of 95_test_vectors.md, configured and inactive. -/
def t4 : Block :=
  { Block.reset with
    bps := 2#3, sps := 8#16
    tone := (((Block.reset.tone.set 0 0x20000000#32).set 1 0x40000000#32).set 2 0x60000000#32).set 3
      0x10000000#32 }

/-- A session on table T4. -/
def t4Session : Block := { t4 with active := true }

/-- The machine around a block, with nothing offered. -/
def withBlock (b : Block) : State := { State.reset with blk := b }

/-- One operation on a block. -/
def one (i : Instr) (b : Block) : Host.Outcome State Fault Refusal := exec i (withBlock b)

/-- A view of the state an outcome leads to, none where it leads to none. -/
def view {α : Type} (f : State → α) : Host.Outcome State Fault Refusal → Option α
  | .next t => some (f t)
  | .fault _ => none
  | .refused _ => none

/-- ERRINFO, EVENTS and STATUS, the columns of the spec's vectors. -/
def columns (t : State) : Word × BitVec 7 × Word := (errInfoWord t.blk, t.blk.events, statusWord t.blk)

/-! ### Commands -/

/-- V-CMD-01, V-CMD-12, V-CMD-21. -/
theorem test_start :
    view columns (one .start t4) = some (0x00000000#32, 0x00#7, 0x00000001#32) ∧
    view columns (one .start t4Session) = some (0x00000107#32, 0x20#7, 0x00000001#32) ∧
    view columns (one .start { t4 with srcRate := 44100#32 }) = some (0x00000000#32, 0x40#7, 0x00000011#32) := by
  decide +kernel

/-- V-CMD-02 to V-CMD-11. -/
theorem test_start_refusals :
    view columns (one .start { t4 with bps := 0#3 }) = some (0x00000001#32, 0x10#7, 0#32) ∧
    view columns (one .start { t4 with bps := 7#3, sps := 0#16 }) = some (0x00000701#32, 0x10#7, 0#32) ∧
    view columns (one .start { t4 with sps := 0#16 }) = some (0x00000002#32, 0x10#7, 0#32) ∧
    view columns (one .start { t4 with tone := t4.tone.set 2 0x80000000#32 }) =
      some (0x00000203#32, 0x10#7, 0#32) ∧
    view columns (one .start { t4 with tone := t4.tone.set 2 0x7FFFFFFF#32 }) = some (0#32, 0x00#7, 1#32) ∧
    view columns (one .start { t4 with tone := t4.tone.set 3 0x40000000#32 }) =
      some (0x00000304#32, 0x10#7, 0#32) ∧
    view columns (one .start { t4 with tone := (t4.tone.set 1 0x20000000#32).set 2 0#32 }) =
      some (0x00000203#32, 0x10#7, 0#32) ∧
    view columns (one .start { t4 with bps := 3#3 }) = some (0x00000403#32, 0x10#7, 0#32) ∧
    view columns (one .start Block.reset) = some (0x00000003#32, 0x10#7, 0#32) := by
  decide +kernel

/-- V-DET-26: STOP with three samples in the window. -/
theorem test_stop :
    view (fun t => (t.blk.dropcnt, t.blk.events, statusWord t.blk)) (one .stop { t4Session with detFill := 3#16 }) =
      some (3#32, 0x04#7, 0#32) := by decide +kernel

/-- V-DET-24: STOP keeps `so`. -/
theorem test_stop_keeps_so :
    view (fun t => statusWord t.blk) (one .stop { t4Session with so := List.replicate 16 0#6 }) =
      some 0x00100000#32 := by decide +kernel

/-- V-DET-27, V-CMD-20. -/
theorem test_flush :
    view (fun t => (t.blk.dropcnt, t.blk.detFill, t.blk.events)) (one .flush { t4Session with detFill := 3#16 }) =
      some (3#32, 0#16, 0x04#7) ∧
    view columns (one .flush t4) = some (0#32, 0#7, 0#32) := by decide +kernel

/-- V-CMD-13 to V-CMD-18. -/
theorem test_illegal_commands :
    view columns (one (.cmdIllegal 0x04#32) t4) = some (0x00000406#32, 0x20#7, 0#32) ∧
    view columns (one (.cmdIllegal 0x101#32) t4) = some (0x00000106#32, 0x20#7, 0#32) ∧
    view columns (one (.cmdIllegal 0xFFFFFFFF#32) t4) = some (0x0000FF06#32, 0x20#7, 0#32) ∧
    view columns (one .nop t4) = some (0#32, 0#7, 0#32) := by decide +kernel

/-! ### Bus access -/

/-- V-BUS-01 to V-BUS-06, V-RST-01. -/
theorem test_reads_after_reset :
    [Instr.rdId, .rdVersion, .rdFsHz, .rdCmd, .rdCfg, .rdSps, .rdSrcRate, .rdStatus, .rdEvents, .rdIrqEn,
      .rdErrInfo, .rdSynSymCnt, .rdDetWinCnt, .rdDetDropCnt, .rdDetFill, .rdReserved 15#7, .rdTone 0#6,
      .rdTone 63#6].map (fun i => view State.responses (one i Block.reset)) =
    [0x54544344#32, 1#32, 0x5622#32, 0#32, 6#32, 0x6E#32, 0x5622#32, 0#32, 0#32, 0#32, 0#32, 0#32, 0#32, 0#32,
      0#32, 0#32, 0#32, 0#32].map (fun w => some [.read w]) := by decide +kernel

/-- V-BUS-08 to V-BUS-11, V-BUS-22: what the registers keep of the word written. -/
theorem test_writes_keep_their_fields :
    view (fun t => t.blk.bps) (one (.wrCfg 0xFFFFFFFF#32) t4) = some 7#3 ∧
    view (fun t => t.blk.sps) (one (.wrSps 0x12345678#32) t4) = some 0x5678#16 ∧
    view (fun t => t.blk.irqEn) (one (.wrIrqEn 0xFFFFFFFF#32) t4) = some 0x7F#7 ∧
    view (fun t => toneAt t.blk 63) (one (.wrTone 63#6 0x7FFFFFFF#32) t4) = some 0x7FFFFFFF#32 ∧
    view (fun t => (statusWord t.blk, t.blk.events)) (one (.wrSrcRate 44100#32) t4) = some (0x10#32, 0#7) := by
  decide +kernel

/-- V-BUS-12, V-BUS-13: ignored writes answer and raise nothing, in a session too. -/
theorem test_ignored_writes :
    [Instr.wrRoId 1#32, .wrRoVersion 1#32, .wrRoFsHz 1#32, .wrRoStatus 1#32, .wrRoErrInfo 1#32,
      .wrRoSynSymCnt 1#32, .wrRoDetWinCnt 1#32, .wrRoDetDropCnt 1#32, .wrRoDetFill 1#32,
      .wrReserved 16#7 0xFFFFFFFF#32].all (fun i =>
        view (fun t => (t.blk, t.responses)) (one i t4Session) = some (t4Session, [.written])) = true := by
  decide +kernel

/-- V-BUS-14 to V-BUS-19, V-EXC-10: a bus error changes nothing and is no event. -/
theorem test_bus_errors :
    [Instr.busErrorSz1 true 0x104#9 5#32, .busErrorSz2 false 0x01C#9 0#32, .busErrorSzRsv false 0x01C#9 0#32,
      .busErrorMisalign1 true 3#7 1#32, .busErrorMisalign2 false 7#7 0#32, .busErrorMisalign3 true 3#7 1#32].all
      (fun i => view (fun t => (t.blk, t.responses)) (one i t4) = some (t4, [.busError])) = true := by
  decide +kernel

/-- V-EXC-01 to V-EXC-03: refused writes during a session. -/
theorem test_locked_writes :
    view (fun t => (columns t, t.blk.tone)) (one (.wrTone 1#6 0x30000000#32) t4Session) =
      some ((0x00004108#32, 0x20#7, 1#32), t4.tone) ∧
    view (fun t => (errInfoWord t.blk, t.blk.srcRate)) (one (.wrSrcRate 1#32) t4Session) =
      some (0x00000608#32, 22050#32) ∧
    view (fun t => (errInfoWord t.blk, t.blk.sps)) (one (.wrSps 9#32) t4Session) = some (0x00000508#32, 8#16) ∧
    view (fun t => (errInfoWord t.blk, t.blk.bps)) (one (.wrCfg 3#32) t4Session) = some (0x00000408#32, 2#3) ∧
    view (fun t => errInfoWord t.blk) (one (.wrTone 63#6 1#32) t4Session) = some 0x00007F08#32 := by
  decide +kernel

/-- V-BUS-20, V-EXC-09: W1C, and the interrupt mask. -/
theorem test_events_and_irq :
    view (fun t => t.blk.events) (one (.wrEvents 0x05#32) { t4 with events := 0x7F#7 }) = some 0x7A#7 ∧
    view (fun t => irq t.blk) (one (.wrIrqEn 0x00#32) { t4 with events := 0x7F#7, irqEn := 0x7F#7 }) =
      some false ∧
    view (fun t => irq t.blk) (one (.wrIrqEn 0x10#32) { t4 with events := 0x10#7 }) = some true := by
  decide +kernel

/-- R61, R62: BASE is taken off a system address: START, a byte read, and the first addresses outside. -/
theorem test_system_transactions :
    systemLine 0x40000000 ⟨0x4000000C, true, .four, 1#32⟩ = some (busWord true 0x00C#9 1#32) ∧
    (systemLine 0x40000000 ⟨0x400001FF, false, .one, 0#32⟩).map decode =
      some (.busErrorSz1 false 0x1FF#9 0#32) ∧
    systemLine 0x40000000 ⟨0x3FFFFFFF, false, .four, 0#32⟩ = none ∧
    systemLine 0x40000000 ⟨0x40000200, false, .four, 0#32⟩ = none := by
  decide +kernel

/-- R63, R236: the bytes of ID at BASE, and `irq` on its platform input only. -/
theorem test_system_bytes_and_irq :
    (List.range 4).map (fun k => systemByte 0x1000 (fun _ => Config.idWord) (0x1000 + k)) =
      [some 0x44#8, some 0x43#8, some 0x54#8, some 0x54#8] ∧
    [3, 4].map (irqLevel 3 { t4 with events := 0x10#7, irqEn := 0x10#7 }) = [some true, none] := by
  decide +kernel

/-! ### The engines -/

/-- V-SYN-23, V-SYN-24, V-SYN-25: SYN_LOAD against M = 2^bps; an in-range symbol starts its tone. -/
theorem test_syn_load :
    view columns (one .synLoad { t4Session with si := [4#8] }) = some (0x00000405#32, 0x08#7, 5#32) ∧
    view columns (one .synLoad { t4Session with si := [255#8] }) = some (0x0000FF05#32, 0x08#7, 5#32) ∧
    view columns (one .synLoad { t4Session with bps := 1#3, si := [2#8] }) = some (0x00000205#32, 0x08#7, 5#32) ∧
    view (fun t => (t.blk.synSym, statusWord t.blk)) (one .synLoad { t4Session with si := [3#8, 1#8] }) =
      some (3#6, 0x103#32) := by decide +kernel

/-- V-SYN-28: S_SYM_IN before START is not ready; any value is pushed in a session. -/
theorem test_sym_in :
    view (fun t => t.blk) (one (.symIn 1#8) t4) = some t4 ∧
    view (fun t => t.blk.si) (one (.symIn 255#8) t4Session) = some [255#8] := by decide +kernel

/-- V-SYN-20: the first and the last word of symbol 2's tone; V-SYN-21: SYN_IDLE after the last. -/
theorem test_smp_out :
    view (fun t => (t.smpWords, t.blk.synN)) (one .smpOut { t4Session with synBusy := true, synSym := 2#6, synN := 1#16 }) =
      some ([0x05A82#17], 2#16) ∧
    view (fun t => (t.smpWords, t.blk.symcnt, t.blk.events, statusWord t.blk))
        (one .smpOut { t4Session with synBusy := true, synSym := 2#6, synN := 7#16 }) =
      some ([0x1A57E#17], 1#32, 0x01#7, 1#32) := by decide +kernel

/-- V-DET-13: only the last position contributes; V-DET-20's LAST on the completing sample drops nothing. -/
theorem test_smp_in_completes :
    view (fun t => (t.blk.so, t.blk.wincnt, t.blk.dropcnt, t.blk.detFill, t.blk.events))
        (one (.smpIn 23170#16 true) { t4Session with detFill := 7#16 }) =
      some ([3#6], 1#32, 0#32, 0#16, 0x02#7) ∧
    [0, 1, 2, 3].map (accAt (accumulate 23170 { t4Session with detFill := 7#16 })) =
      [-536848900, -759211390, -536848900, 290528630] := by decide +kernel

/-- L1-PART: a LAST mark on an incomplete window; without it the window stays open. -/
theorem test_smp_in_partial :
    view (fun t => (t.blk.so, t.blk.dropcnt, t.blk.detFill, t.blk.events))
        (one (.smpIn 100#16 true) { t4Session with detFill := 2#16 }) = some ([], 3#32, 0#16, 0x04#7) ∧
    view (fun t => (t.blk.detFill, t.blk.dropcnt)) (one (.smpIn 100#16 false) { t4Session with detFill := 2#16 }) =
      some (3#16, 0#32) := by decide +kernel

/-- V-DET-23, V-DET-24: a full `so` holds samples back; a symbol is taken outside a session too. -/
theorem test_so_full_and_sym_out :
    view (fun t => t.blk.detFill) (one (.smpIn 5#16 false) { t4Session with so := List.replicate 16 0#6 }) =
      some 0#16 ∧
    view (fun t => (t.symWords, statusWord t.blk)) (one .symOut { t4 with so := List.replicate 16 0#6 }) =
      some ([0#8], 0x000F0000#32) := by decide +kernel

/-- R6, R157, R184: the depths are an argument; at depth 1 one waiting symbol fills either FIFO. -/
theorem test_depths :
    view (fun t => t.blk.si) (exec (.symIn 2#8)
      { withBlock { t4Session with si := [1#8] } with depths := ⟨1, 1⟩ }) = some [1#8] ∧
    view (fun t => t.blk.detFill) (exec (.smpIn 5#16 false)
      { withBlock { t4Session with so := [1#6] } with depths := ⟨1, 1⟩ }) = some 0#16 ∧
    view (fun t => t.blk.si.length) (exec (.symIn 2#8)
      { withBlock { t4Session with si := List.replicate 16 1#8 } with depths := ⟨31, 31⟩ }) = some 17 := by
  decide +kernel

/-! ### Fetching and stepping -/

/-- The very next step runs the row's word that `withFetchWord` places. -/
theorem test_step_runs_the_word :
    view columns (step (State.reset.withFetchWord 48 0xC0C00000001)) = some (0x00000003#32, 0x10#7, 0#32) ∧
    view (fun t => (t.blk, t.agenda, t.responses)) (step (State.reset.withFetchWord 48 0x40000000000)) =
      some (Block.reset, [], [.read 0x54544344#32]) := by decide +kernel

/-! ### The host reference -/

/-- V-HOST-01 to V-HOST-05. -/
theorem test_host_bits :
    bytesToBits [0x61#8] = [false, true, true, false, false, false, false, true] ∧
    bitsToSymbols (bytesToBits [0x61#8]) 6 = [24, 16] ∧
    bitsToBytes (symbolsToBits [24, 16] 6) = [0x61#8, 0x00#8] ∧
    bitsToSymbols (bytesToBits [1#8, 2#8, 3#8]) 6 = [0, 16, 8, 3] ∧
    bitsToSymbols (bytesToBits [0xFF#8]) 3 = [7, 7, 6] := by decide +kernel

/-- L1-FRAME. -/
theorem test_host_frames :
    (encodeFrame [0x61#8] [9#8, 8#8]).toOption = some [0#8, 1#8, 0x61#8, 9#8, 8#8] ∧
    (decodeFrame [0#8, 0#8]).toOption = some ([], []) ∧
    (decodeFrame [0#8]).toOption = none ∧ (decodeFrame [0#8, 5#8, 0x61#8]).toOption = none := by decide +kernel

/-- L1-HEX. -/
theorem test_host_hex :
    hexReconstruct ['5', '0', '-', '4', '4', ':', '4', '6'] = [0x50#8, 0x44#8, 0x46#8] ∧
    hexReconstruct ['5', '0', '4'] = [0x50#8, 0x40#8] ∧
    hexText (fun _ => false) [0x50#8, 0x44#8, 0xAF#8] = ['5', '0', '4', '4', 'a', 'f'] ∧
    hexText (fun _ => true) [0x0A#8, 0xF9#8] = ['0', 'A', 'F', '9'] := by decide +kernel

/-- R217: the frame name is the last part of the path, as UTF-8; R218: what is no UTF-8 falls back to the
default name and the whole frame body. -/
theorem test_host_names :
    utf8 (basename ['/'] ['x', '/', 'a', '.', 'b']) = [0x61#8, 0x2E#8, 0x62#8] ∧
    utf8 ['é'] = [0xC3#8, 0xA9#8] ∧ utf8Decode [0xC3#8, 0xA9#8] = some ['é'] ∧
    utf8Decode [0xC0#8, 0x80#8] = none ∧ utf8Decode [0xED#8, 0xA0#8, 0x80#8] = none ∧
    decodeResult false ['d'] [0x00, 0x01, 0x61, 0x09] 8 = (['a'], [9#8]) ∧
    decodeResult false ['d'] [0x00, 0x01, 0xFF, 0x09] 8 = (['d'], [0#8, 1#8, 0xFF#8, 9#8]) ∧
    decodeResult true ['d'] [0x00, 0x01, 0x61, 0x09] 8 = (['d'], [0#8, 1#8, 0x61#8, 9#8]) := by
  decide +kernel

/-- R217, R218: the model's orders of port lines are among those the rules allow (log 18). -/
theorem test_host_orders :
    isEncodeOrder [1, 2, 0] 3 (encodeLines [1, 2, 0] 3) = true ∧
    isDecodeOrder [5#16, 6#16, 7#16, 8#16] 3 (decodeLines [5#16, 6#16, 7#16, 8#16] 3) = true := by
  decide +kernel

/-- R265 step 8: START after a configuration with SPS = 0 is refused with cause 2. -/
theorem test_host_start_refused :
    (startAndCheck (withBlock { t4 with sps := 0#16 })).result.toOption = none ∧
    errInfoWord (startAndCheck (withBlock { t4 with sps := 0#16 })).state.blk = 2#32 ∧
    (startAndCheck (withBlock t4)).result.toOption = some () := by decide +kernel

/-- L1-SPS, V-HOST-07, V-HOST-08. -/
theorem test_host_numbers :
    spsOfDuration (1 / 200) = 110 ∧ tuningWord (11025 / 2) = 0x40000000 ∧
    [(1 : Rat), -1, 1 / 2].map sampleOfFloat = [32767, -32768, 16384] := by
  refine ⟨?_, ?_, ?_⟩ <;> decide +kernel

/-! ### Witnesses: the hypotheses of the statements are met

Each theorem shows a concrete state and operands that meet all the hypotheses of the statement it names. -/

/-- Two tones at the smallest legal BPS: at sps = 4 they are orthogonal. -/
def pair : Block :=
  { Block.reset with
    bps := 1#3, sps := 4#16, tone := (Block.reset.tone.set 0 0x20000000#32).set 1 0x40000000#32 }

/-- A session on `pair`. -/
def pairSession : Block := { pair with active := true }

/-- The extreme tuning words, 1 and 2^31 - 1, at the smallest BPS and SPS. -/
def extreme : Block :=
  { pair with sps := 1#16, tone := (Block.reset.tone.set 0 0x00000001#32).set 1 0x7FFFFFFF#32 }

/-- Table E64 of 95_test_vectors.md at the largest BPS. -/
def e64 : Block :=
  { Block.reset with tone := ⟨((List.range 64).map fun s => BitVec.ofNat 32 ((s + 1) * 0x01F00000)).toArray, by simp⟩ }

theorem test_witness_pair_configured : ConfigValid pairSession :=
  ⟨by decide, by decide, by decide +kernel, by decide +kernel⟩

theorem accBounded_of_zero {b : Block} (h : b.acc = accZero) (s : Nat) :
    |accAt b s| ≤ b.detFill.toNat * maxProduct := by
  rw [accAt, h, laneD_accZero]
  simp [maxProduct]

/-- A session meets the invariant, for depths that hold its FIFOs. -/
theorem pairSession_inv (d : Config.Depths) : pairSession.Inv d where
  siFits := Nat.zero_le _
  soFits := Nat.zero_le _
  configured _ := test_witness_pair_configured
  idle := by decide
  toneIdle := by decide
  toneRunning := by decide
  haltedIsIdle := by decide
  windowOpen := by decide
  accBounded := accBounded_of_zero rfl
  deadLanes s _ := laneD_accZero s
  symbolsLegal := by decide
  causeKnown := by decide

/-- StepKeepsInvariant, LoopBackReturnsTheSymbol, AcceptedSamplesAreCounted. -/
theorem test_witness_session_inv : (withBlock pairSession).Inv := ⟨by decide, pairSession_inv _⟩

/-- StopOutsideSessionIsIdle: a configured block outside a session, with an event and a cause recorded. -/
theorem test_witness_StopOutsideSessionIsIdle :
    (withBlock { pair with events := 0x20#7, errCode := 8#4 }).Inv ∧
    (withBlock { pair with events := 0x20#7, errCode := 8#4 }).blk.active = false where
  left := ⟨by decide,
    { siFits := by decide, soFits := by decide, configured := fun h => absurd h (by decide), idle := by decide
      toneIdle := by decide, toneRunning := by decide, haltedIsIdle := by decide, windowOpen := by decide
      accBounded := accBounded_of_zero rfl, deadLanes := fun s _ => laneD_accZero s
      symbolsLegal := by decide, causeKnown := by decide }⟩
  right := rfl

/-- AccumulatorsFitTheirRegister: a session, with a window that the next sample completes. -/
theorem test_witness_AccumulatorsFitTheirRegister :
    ({ pairSession with detFill := 3#16 } : Block).Inv Config.depths ∧
    ({ pairSession with detFill := 3#16 } : Block).active = true where
  left :=
    { siFits := by decide, soFits := by decide
      configured := fun _ => ⟨by decide, by decide, by decide +kernel, by decide +kernel⟩
      idle := by decide
      toneIdle := by decide, toneRunning := by decide, haltedIsIdle := by decide, windowOpen := by decide
      accBounded := accBounded_of_zero rfl, deadLanes := fun s _ => laneD_accZero s
      symbolsLegal := by decide, causeKnown := by decide }
  right := rfl

theorem test_witness_StepKeepsInvariant :
    (withBlock pairSession).Inv ∧ step (withBlock pairSession) = .next (withBlock pairSession) :=
  ⟨test_witness_session_inv, rfl⟩

/-- EveryStepAnswersNext: SYM_IN is enabled under the least and the greatest depths; with one symbol waiting it
is enabled under the greatest only. -/
theorem test_witness_EveryStepAnswersNext :
    enabled ⟨1, 1⟩ pairSession (.symIn 1#8) = true ∧ enabled ⟨31, 31⟩ pairSession (.symIn 1#8) = true ∧
    enabled ⟨1, 1⟩ { pairSession with si := [0#8] } (.symIn 1#8) = false ∧
    enabled ⟨31, 31⟩ { pairSession with si := [0#8] } (.symIn 1#8) = true := by decide

/-- A sample is accepted; with `so` full it would wait. -/
theorem test_witness_AcceptedSamplesAreCounted :
    (withBlock pairSession).Inv ∧ pairSession.active = true ∧
    (view (fun t => samplesSeen t.blk) (one (.smpIn 5#16 false) pairSession)) = some 1#32 ∧
    (view (fun t => samplesSeen t.blk) (one .flush pairSession)) = some 0#32 :=
  ⟨test_witness_session_inv, rfl, by decide +kernel, by decide +kernel⟩

theorem test_witness_DecodeInvertsEncode :
    WellFormed (.cmdIllegal 4#32) ∧ WellFormed (.rdReserved 15#7) ∧ WellFormed (.wrReserved 63#7 9#32) := by
  decide

theorem test_witness_EncodeInvertsDecodeOfWrites :
    Tv.we 0xC0C00000001#44 = true ∧ Tv.sz 0x01C00000000#44 ≠ 0b10#2 ∧
    (Tv.addr 0x41E00000000#44).extractLsb' 0 2 ≠ 0#2 := by decide

/-- StepPerformsTheNextLine: with SYN_LOAD not enabled, and with the line going first. -/
theorem test_witness_StepPerformsTheNextLine :
    let s := { withBlock pairSession with agenda := [encode .rdId] }
    let t := { withBlock { pairSession with si := [1#8] } with agenda := [encode .rdId], synFirst := false }
    s.agenda = encode .rdId :: [] ∧ enabled s.depths s.blk (decode (encode .rdId)) = true ∧
      synLoadEnabled s.blk = false ∧
    t.agenda = encode .rdId :: [] ∧ enabled t.depths t.blk (decode (encode .rdId)) = true ∧
      t.synFirst = false ∧ synLoadEnabled t.blk = true := by decide +kernel

/-- StepWaitsAndTakesSynLoad: a waiting line with and without an enabled SYN_LOAD, no line, SYN_LOAD first. -/
theorem test_witness_StepWaitsAndTakesSynLoad :
    let s := { withBlock { pairSession with si := [1#8] } with agenda := [.smpOut] }
    let t := { withBlock pairSession with agenda := [.smpOut] }
    s.agenda = .smpOut :: [] ∧ enabled s.depths s.blk (decode .smpOut) = false ∧ synLoadEnabled s.blk = true ∧
    enabled t.depths t.blk (decode .smpOut) = false ∧ synLoadEnabled t.blk = false ∧
    (withBlock pairSession).agenda = [] ∧ s.synFirst = true := by decide +kernel

theorem test_witness_StartAfterResetIsRefused : State.reset.blk = Block.reset := rfl

theorem test_witness_ResetBlockIsQuiet : (withBlock Block.reset).blk = Block.reset := rfl

theorem test_witness_BusErrorsChangeNoState :
    Tv.sz 0x01C00000000#44 ≠ 0b10#2 ∧ Tv.sz 0x21C00000000#44 ≠ 0b10#2 ∧ Tv.sz 0x61C00000000#44 ≠ 0b10#2 ∧
    (Tv.addr 0xC0D00000001#44).extractLsb' 0 2 ≠ 0#2 := by decide

/-- ConstantAndReservedOffsets: the first and the last reserved word index. -/
theorem test_witness_ConstantAndReservedOffsets :
    15 ≤ (15#7).toNat ∧ (15#7).toNat ≤ 63 ∧ 15 ≤ (63#7).toNat ∧ (63#7).toNat ≤ 63 := by decide

theorem test_witness_ReadsHaveNoSideEffect :
    Tv.we 0x41C00000000#44 = false ∧ Tv.we 0x01C00000000#44 = false := by decide

theorem test_witness_IgnoredWrites :
    (busWord true 0x01C#9 5#32, Instr.wrRoStatus 5#32) ∈
      [(busWord true 0x000#9 5#32, .wrRoId 5#32), (busWord true 0x004#9 5#32, .wrRoVersion 5#32),
        (busWord true 0x008#9 5#32, .wrRoFsHz 5#32), (busWord true 0x01C#9 5#32, .wrRoStatus 5#32),
        (busWord true 0x028#9 5#32, .wrRoErrInfo 5#32), (busWord true 0x02C#9 5#32, .wrRoSynSymCnt 5#32),
        (busWord true 0x030#9 5#32, .wrRoDetWinCnt 5#32), (busWord true 0x034#9 5#32, .wrRoDetDropCnt 5#32),
        (busWord true 0x038#9 5#32, .wrRoDetFill 5#32), (busWord true 0x00C#9 0#32, .nop)] := by decide

/-- ConfigurationWrites, ToneWrites, SessionRule: a block inside and a block outside a session. -/
theorem test_witness_ConfigurationWrites : pair.active = false ∧ pairSession.active = true := by decide

theorem test_witness_ToneWrites : (withBlock t4).blk.active = false ∧ (withBlock t4Session).blk.active = true := by
  decide

theorem test_witness_RepeatedWritesAreIdempotent :
    let t := withBlock { pair with bps := 5#3 }
    exec (.wrCfg 5#32) (withBlock pair) = .next { t with responses := [.written] } ∧
    exec (.wrCfg 5#32) { t with responses := [.written] } =
      .next { t with responses := [.written, .written] } := by
  exact ⟨rfl, rfl⟩

/-- IllegalCommandOnlyRaises: OP above 3; MBZ not zero with a legal OP. -/
theorem test_witness_IllegalCommandOnlyRaises :
    4 ≤ (0x04#32).toNat % 256 ∧ (0x101#32).toNat / 256 ≠ 0 := by decide

/-- StartOpensSession: the smallest configuration with the extreme tuning words, and the largest. -/
theorem test_witness_StartOpensSession :
    extreme.active = false ∧ ConfigValid extreme ∧ e64.active = false ∧ ConfigValid e64 :=
  ⟨rfl, ⟨by decide, by decide, by decide +kernel, by decide +kernel⟩, rfl,
    ⟨by decide, by decide, by decide +kernel, by decide +kernel⟩⟩

/-- StartRefusals, clause by clause: BPS 0 and 7; SPS 0; a tuning word of 0 and of 2^31 at the first and the
last active index; a repeated entry at the last active index. -/
theorem test_witness_StartRefusals :
    pair.active = false ∧
    ¬ (1 ≤ (0#3).toNat ∧ (0#3).toNat ≤ 6) ∧ ¬ (1 ≤ (7#3).toNat ∧ (7#3).toNat ≤ 6) ∧
    (1 ≤ pair.bps.toNat ∧ pair.bps.toNat ≤ 6) ∧ pair.sps ≠ 0#16 ∧
    toneAt { pair with tone := pair.tone.set 0 0#32 } 0 = 0#32 ∧
    2 ^ 31 ≤ (toneAt { pair with tone := pair.tone.set 1 0x80000000#32 } 1).toNat ∧
    ¬ (toneAt pair 0 = 0#32 ∨ 2 ^ 31 ≤ (toneAt pair 0).toNat) ∧ 1 < alphabet pair ∧
    (∃ j < 1, toneAt { pair with tone := pair.tone.set 1 0x20000000#32 } j =
      toneAt { pair with tone := pair.tone.set 1 0x20000000#32 } 1) ∧
    (∀ k < alphabet pair, ¬ (toneAt { pair with tone := pair.tone.set 1 0x20000000#32 } k = 0#32 ∨
      2 ^ 31 ≤ (toneAt { pair with tone := pair.tone.set 1 0x20000000#32 } k).toNat)) ∧
    (¬ ∃ j < 0, toneAt pair j = toneAt pair 0) ∧
    (∀ j < alphabet pair, ¬ (toneAt pair j = 0#32 ∨ 2 ^ 31 ≤ (toneAt pair j).toNat) ∧
      ¬ ∃ i < j, toneAt pair i = toneAt pair j) := by decide +kernel

theorem test_witness_StartWhileActive : (withBlock pairSession).blk.active = true := rfl

/-- FlushDiscardsPartialWindow: a partial window; an empty one; outside a session. -/
theorem test_witness_FlushDiscardsPartialWindow :
    (({ pairSession with detFill := 3#16 } : Block).active = true ∧
      ({ pairSession with detFill := 3#16 } : Block).detFill ≠ 0#16) ∧
    pairSession.detFill = 0#16 ∧ pair.active = false := by decide

theorem test_witness_SineRomSymmetry : (2047 : Nat) < 2048 ∧ 1 ≤ (2047 : Nat) ∧ (4095 : Nat) < 4096 := by decide

/-- SineRomRoundsTheSine: an entry where the sine is not negative, the first, and one where it is, the
trough. -/
theorem test_witness_SineRomRoundsTheSine :
    (0 : ℕ) < 4096 ∧ 0 ≤ 32767 * Real.sin (2 * Real.pi * (0 : ℕ) / 4096) ∧
    (3072 : ℕ) < 4096 ∧ 32767 * Real.sin (2 * Real.pi * (3072 : ℕ) / 4096) < 0 := by
  have h : 2 * Real.pi * ((3072 : ℕ) : ℝ) / 4096 = Real.pi / 2 + Real.pi := by push_cast; ring
  refine ⟨by norm_num, by simp, by norm_num, ?_⟩
  rw [h, Real.sin_add_pi, Real.sin_pi_div_two]
  norm_num

/-- WaveIsCloseToTheSine: the tuning word 2^30 realises 5512.5 Hz. -/
theorem test_witness_WaveIsCloseToTheSine :
    (5512.5 : ℝ) = ((0x40000000#32 : Word).toNat : ℝ) * 22050 / 2 ^ 32 := by
  norm_num

/-- SymInPushesOrWaits: one place left; none left; halted; outside a session. -/
theorem test_witness_SymInPushesOrWaits :
    let b := { pairSession with si := List.replicate 15 0#8 }
    (b.active = true ∧ b.synHalt = false ∧ b.si.length < (withBlock b).depths.dSi) ∧
    Config.depths.dSi ≤ ({ pairSession with si := List.replicate 16 0#8 } : Block).si.length ∧
    ({ pairSession with synHalt := true } : Block).synHalt = true ∧ pair.active = false := by decide

/-- SynLoadStartsOrHalts: the largest legal symbol, the smallest illegal one, and each way of not being
enabled. -/
theorem test_witness_SynLoadStartsOrHalts :
    let b := { pairSession with si := [1#8] }
    let c := { pairSession with si := [2#8] }
    (b.active = true ∧ b.synHalt = false ∧ b.synBusy = false ∧ b.si = 1#8 :: [] ∧
      (1#8).toNat < 2 ^ b.bps.toNat) ∧
    (c.active = true ∧ c.synHalt = false ∧ c.synBusy = false ∧ c.si = 2#8 :: [] ∧
      2 ^ c.bps.toNat ≤ (2#8).toNat) ∧
    pair.active = false ∧ ({ b with synHalt := true } : Block).synHalt = true ∧
    ({ b with synBusy := true } : Block).synBusy = true ∧ pairSession.si = [] := by decide

/-- SmpOutEmitsTheTone: the last but one sample, the last, and no tone. -/
theorem test_witness_SmpOutEmitsTheTone :
    let b := { pairSession with synBusy := true, synN := 2#16 }
    let c := { pairSession with synBusy := true, synN := 3#16 }
    (b.active = true ∧ b.synBusy = true ∧ b.synN.toNat + 1 ≠ b.sps.toNat) ∧
    (c.active = true ∧ c.synBusy = true ∧ c.synN.toNat + 1 = c.sps.toNat) ∧
    pair.active = false ∧ pairSession.synBusy = false := by decide

theorem test_witness_WholeToneIsEmitted :
    let b := { pairSession with synBusy := true, synSym := 1#6 }
    b.active = true ∧ b.synBusy = true ∧ b.synN = 0#16 ∧ 1 ≤ b.sps.toNat := by decide

theorem test_witness_EmittedStreamIsTheTones :
    let is : List Instr := [.symIn 1#8, .rdStatus, .synLoad, .smpOut]
    pairSession.active = true ∧ pairSession.synHalt = false ∧ pairSession.synBusy = false ∧
    pairSession.si = [] ∧ 1 ≤ pairSession.sps.toNat ∧ pairSession.bps.toNat ≤ 6 ∧ .stop ∉ is ∧
    (∀ v : Byte, .symIn v ∈ is → v.toNat < alphabet pairSession) := by
  refine ⟨by decide, by decide, by decide, by decide, by decide, by decide, by decide, fun v hv => ?_⟩
  simp at hv
  subst hv
  decide

theorem test_witness_ArgmaxIsLowestMaximum : 1 ≤ (1 : Nat) ∧ (0 : Nat) < 1 := by decide

/-- SmpInAccumulatesAndDecides: completing, discarding, staying open, and not ready in both ways. -/
theorem test_witness_SmpInAccumulatesAndDecides :
    let b := { pairSession with detFill := 3#16, so := List.replicate 15 0#6 }
    let c := { pairSession with detFill := 2#16 }
    (b.active = true ∧ b.so.length < (withBlock b).depths.dSo ∧ b.detFill + 1#16 = b.sps) ∧
    (c.active = true ∧ c.so.length < (withBlock c).depths.dSo ∧ c.detFill + 1#16 ≠ c.sps) ∧
    pair.active = false ∧
    Config.depths.dSo ≤ ({ pairSession with so := List.replicate 16 0#6 } : Block).so.length := by decide

theorem test_witness_SymOutTakesTheOldest :
    ({ pair with so := [1#6, 0#6] } : Block).so = 1#6 :: [0#6] ∧ pairSession.so = [] := by decide

/-- WholeWindowIsDecided, with one place left in `so`. -/
theorem test_witness_WholeWindowIsDecided :
    let b := { pairSession with so := List.replicate 15 0#6 }
    b.active = true ∧ b.bps.toNat ≤ 6 ∧ b.detFill = 0#16 ∧ b.acc = Vector.replicate 64 0 ∧
    b.so.length < (withBlock b).depths.dSo ∧
    [5#16, 6#16, 7#16].length + 1 = b.sps.toNat := by decide +kernel

/-- PartialTailIsDropped: one window and a tail with a place to spare, and a full window into the last place. -/
theorem test_witness_PartialTailIsDropped :
    let b := { pairSession with so := List.replicate 14 0#6 }
    let c := { pairSession with so := List.replicate 15 0#6 }
    let xs : List Sample := List.replicate 7 5#16
    let ys : List Sample := List.replicate 4 5#16
    (b.active = true ∧ b.bps.toNat ≤ 6 ∧ b.detFill = 0#16 ∧ b.acc = Vector.replicate 64 0 ∧ 1 ≤ xs.length ∧
      3 < b.sps.toNat ∧ xs.length = 1 * b.sps.toNat + 3 ∧ b.so.length + 1 < Config.depths.dSo) ∧
    (1 ≤ ys.length ∧ 0 < c.sps.toNat ∧ ys.length = 1 * c.sps.toNat + 0 ∧ c.so.length + 1 = Config.depths.dSo) := by
  decide +kernel

theorem test_witness_IntegerScalingKeepsTheSymbol : (1 : Int) ≤ 1 := by decide

/-- EqualCorrelationsGiveSymbolZero: a silent window and a window of one sample. -/
theorem test_witness_EqualCorrelationsGiveSymbolZero :
    (∀ x ∈ [(0 : Int), 0, 0, 0], x = 0) ∧ [(7 : Int)].length = 1 ∧
    (∀ s < alphabet pair, corr [0, 0] (toneAt pair s) = corr [0, 0] (toneAt pair 0)) := by decide +kernel

/-- LoopBackReturnsTheSymbol: the table `pair` is Distinguishable, and the largest symbol is sent. -/
theorem test_witness_LoopBackReturnsTheSymbol :
    (withBlock pairSession).Inv ∧ pairSession.active = true ∧ pairSession.synHalt = false ∧
    pairSession.synBusy = false ∧ pairSession.si = [] ∧ pairSession.detFill = 0#16 ∧
    pairSession.so.length < (withBlock pairSession).depths.dSo ∧ (1#8).toNat < alphabet pairSession ∧ Distinguishable pairSession :=
  ⟨test_witness_session_inv, rfl, rfl, rfl, rfl, rfl, by decide, by decide, by
    unfold Distinguishable gram; decide +kernel⟩

/-- EventsAreSticky and the other statements about every operation that answers a next state. -/
theorem test_witness_EventsAreSticky :
    (∀ x, Instr.nop ≠ .wrEvents x) ∧
    exec .nop (withBlock { pair with events := 1#7 }) =
      .next { withBlock { pair with events := 1#7 } with responses := [.written] } ∧
    ({ pair with events := 1#7 } : Block).events.getLsbD 0 = true := by
  exact ⟨by simp, rfl, rfl⟩

/-- ErrInfoFollowsItsEvent: every row of R233 is raised somewhere. -/
theorem test_witness_ErrInfoFollowsItsEvent :
    Raises { pair with bps := 0#3 } .start 1#4 0#8 4 ∧ Raises { pair with bps := 7#3 } .start 1#4 7#8 4 ∧
    Raises { pair with sps := 0#16 } .start 2#4 0#8 4 ∧
    Raises { pair with tone := pair.tone.set 1 0x80000000#32 } .start 3#4 1#8 4 ∧
    Raises { pair with tone := pair.tone.set 1 0x20000000#32 } .start 4#4 1#8 4 ∧
    Raises { pairSession with si := [2#8] } .synLoad 5#4 2#8 3 ∧
    Raises pair (.cmdIllegal 0x104#32) 6#4 4#8 5 ∧ Raises pairSession .start 7#4 1#8 5 ∧
    Raises pairSession (.wrCfg 1#32) 8#4 4#8 5 ∧ Raises pairSession (.wrSps 4#32) 8#4 5#8 5 ∧
    Raises pairSession (.wrSrcRate 1#32) 8#4 6#8 5 ∧ Raises pairSession (.wrTone 63#6 1#32) 8#4 127#8 5 :=
  ⟨.cfgBps rfl (by decide), .cfgBps rfl (by decide), .cfgSps rfl (by decide) (by decide) rfl,
    .cfgFtwRange 1 rfl (by decide) (by decide) (by decide) (by decide) (by decide +kernel) (by decide +kernel),
    .cfgFtwDup 1 rfl (by decide) (by decide) (by decide) (by decide +kernel) (by decide) (by decide +kernel)
      (by decide +kernel),
    .sor 2#8 [] rfl rfl (by decide), .cmdIllegal _, .cmdState rfl, .lockedCfg _ rfl, .lockedSps _ rfl,
    .lockedSrcRate _ rfl, .lockedTone _ _ rfl⟩

/-- ErrInfoFollowsItsEvent: an operation that raises nothing, an in-range SYN_LOAD and a write outside a session
among them, and what the raising ones leave behind. -/
theorem test_witness_ErrInfo_kept :
    (∀ code info bit, ¬ Raises pair (.wrCfg 1#32) code info bit) ∧
    (∀ code info bit, ¬ Raises { pairSession with si := [1#8] } .synLoad code info bit) ∧
    [(.wrCfg 1#32, pair), (.start, pair), (.start, { pair with sps := 0#16 }), (.start, pairSession),
      (.wrTone 63#6 1#32, pairSession), (.synLoad, { pairSession with si := [1#8] }),
      (.synLoad, { pairSession with si := [2#8] })].map
      (fun p : Instr × Block => view (fun t => (t.blk.errCode, t.blk.errInfo, t.blk.events)) (one p.1 p.2)) =
    [some (0#4, 0#8, 0#7), some (0#4, 0#8, 0#7), some (2#4, 0#8, 0x10#7), some (7#4, 1#8, 0x20#7),
      some (8#4, 127#8, 0x20#7), some (0#4, 0#8, 0#7), some (5#4, 2#8, 0x08#7)] := by
  refine ⟨?_, ?_, by decide +kernel⟩
  · intro _ _ _ h
    cases h with | lockedCfg x h1 => cases h1
  · intro _ _ _ h
    cases h with | sor v rest _ h1 h2 =>
    cases h1
    exact absurd h2 (by decide)

/-- SessionRule: a session that begins and one that ends. -/
theorem test_witness_SessionRule :
    pair.active = false ∧ view (fun t => t.blk.active) (one .start pair) = some true ∧
    pairSession.active = true ∧ view (fun t => t.blk.active) (one .stop pairSession) = some false := by
  decide +kernel

theorem test_witness_EnginesShareNoMutableState :
    exec (.symIn 1#8) (withBlock pairSession) = .next (withBlock { pairSession with si := [1#8] }) ∧
    exec .symOut (withBlock { pairSession with so := [1#6] }) =
      .next { withBlock pairSession with symWords := [1#8] } := by
  exact ⟨rfl, rfl⟩

/-- DetectorIsLocal: two blocks that agree for the detector and differ for the synthesizer. -/
theorem test_witness_DetectorIsLocal :
    SameDetector pairSession { pairSession with synBusy := true, si := [1#8] } ∧
    (withBlock pairSession).depths = (withBlock { pairSession with synBusy := true }).depths ∧
    (∃ t, one .symOut pairSession = .next t) ∧
    ∃ t, one .symOut { pairSession with synBusy := true, si := [1#8] } = .next t :=
  ⟨⟨rfl, ⟨rfl, rfl, rfl, rfl⟩, rfl, rfl, rfl, rfl, rfl⟩, rfl, ⟨_, rfl⟩, ⟨_, rfl⟩⟩

/-- FrameRoundTrip: metadata of the largest length a frame carries, and one byte more. -/
theorem test_witness_FrameRoundTrip :
    (List.replicate 65535 0x78#8).length ≤ 65535 ∧ 65535 < (List.replicate 65536 0x78#8).length := by
  rw [List.length_replicate, List.length_replicate]
  exact ⟨Nat.le_refl _, Nat.lt_succ_self _⟩

theorem test_witness_PackingAddsOneZeroByte : 1 ≤ (1 : Nat) ∧ (6 : Nat) ≤ 6 ∧ 8 * 3 % 6 = 0 ∧ 8 * 1 % 6 ≠ 0 := by
  decide

end Sys2Proof.Tests
end

/-! ## The state: what every step keeps (10_state.md) -/

namespace Sys2Proof.Machine

open Sys2Proof

/-! ### Bounds of the detector's arithmetic (R182, R183) -/

theorem sineRows_le : ∀ row ∈ sineRows, ∀ v ∈ row, v ≤ 32767 := by
  decide +kernel

/-- An entry of a table of rows keeps a bound of all its entries, and 0 stands beyond the table. -/
theorem getD_getD_le {rows : List (List Nat)} {m : Nat} (h : ∀ row ∈ rows, ∀ v ∈ row, v ≤ m) (i j : Nat) :
    (rows.getD i []).getD j 0 ≤ m := by
  by_cases hi : i < rows.length
  · by_cases hj : j < (rows[i]).length
    · simpa [List.getD, hi, hj] using h _ (List.getElem_mem hi) _ (List.getElem_mem hj)
    · simp [List.getD, hi, List.getElem?_eq_none (Nat.le_of_not_lt hj)]
  · simp [List.getD, List.getElem?_eq_none (Nat.le_of_not_lt hi)]

theorem sineQuarter_le (k : Nat) : sineQuarter k ≤ 32767 := by
  unfold sineQuarter
  split
  · exact getD_getD_le sineRows_le _ _
  · decide

theorem sineHalf_le (k : Nat) : sineHalf k ≤ 32767 := by
  unfold sineHalf
  split <;> exact sineQuarter_le _

theorem abs_sineRom_le (k : Nat) : |sineRom k| ≤ 32767 := by
  unfold sineRom
  split
  · have := sineHalf_le k
    rw [Nat.abs_cast]
    omega
  · have := sineHalf_le (k - 2048)
    rw [abs_neg, Nat.abs_cast]
    omega

theorem abs_sampleValue_le (x : Sample) : |sampleValue x| ≤ 32768 := by
  have hlo := BitVec.le_toInt x
  have hhi : x.toInt < 2 ^ 15 := BitVec.toInt_lt
  rw [sampleValue, abs_le]
  omega

/-- R183: one product of a sample and a reference value. -/
theorem abs_sample_mul_wave_le (x : Sample) (ftw : Word) (n : Nat) :
    |sampleValue x * wave ftw n| ≤ maxProduct := by
  rw [abs_mul]
  exact mul_le_mul (abs_sampleValue_le x) (abs_sineRom_le _) (abs_nonneg _) (by decide)

/-- R183: one more sample adds at most one product to a lane. -/
theorem abs_accAt_accumulate_le {b : Block} (x : Sample)
    (h : ∀ s, |accAt b s| ≤ b.detFill.toNat * maxProduct) (s : Nat) :
    |accAt (accumulate (sampleValue x) b) s| ≤ (b.detFill.toNat + 1) * maxProduct := by
  have hs := h s
  have hmax : 0 ≤ maxProduct := by decide
  by_cases hlt : s < 64
  · rw [accAt_accumulate _ _ hlt]
    split
    · have hprod := abs_sample_mul_wave_le x (toneAt b s) b.detFill.toNat
      have hsum := abs_add_le (accAt b s) (sampleValue x * wave (toneAt b s) b.detFill.toNat)
      linarith
    · linarith
  · rw [accAt, laneD_of_ge _ _ (by omega), abs_zero]
    exact mul_nonneg (by omega) hmax

/-- Lanes outside the alphabet do not accumulate (R185). -/
theorem accAt_accumulate_dead (x : Int) {b : Block} {s : Nat} (h : alphabet b ≤ s) (h0 : accAt b s = 0) :
    accAt (accumulate x b) s = 0 := by
  by_cases hlt : s < 64
  · rw [accAt_accumulate _ _ hlt, if_neg (by omega), h0]
  · exact laneD_of_ge _ _ (by omega)

theorem foldl_select_mem (p : Nat → Nat → Prop) [∀ a c, Decidable (p a c)] (l : List Nat) (a : Nat) :
    l.foldl (fun best s => if p best s then s else best) a ∈ a :: l := by
  induction l generalizing a with
  | nil => simp
  | cons c l ih =>
    rw [List.foldl_cons]
    split
    · exact List.mem_cons_of_mem _ (ih c)
    · have := ih a
      simp only [List.mem_cons] at this ⊢
      tauto

/-- The decided lane is an active one (R182). -/
theorem argmaxLowest_lt (acc : Nat → Int) {m : Nat} (hm : 0 < m) : argmaxLowest acc m < m := by
  have h := foldl_select_mem (fun best s => acc best < acc s) (List.range' 1 (m - 1)) 0
  rw [← argmaxLowest, List.mem_cons, List.mem_range'_1] at h
  omega

/-! ### Operations that may wait (R10) -/

/-- What holds of the block as it is, where a port waits, and of the block after the transfer, holds after the
operation (R10). -/
theorem keeps_ite (P : Block → Prop) {ready : Bool} {b b' : Block} (htransfer : ready = true → P b')
    (hwait : P b) : P (if ready then b' else b) := by
  split
  · exact htransfer ‹_›
  · exact hwait

/-! ### Which operation touches which part of the block (R25, R165) -/

@[simp] theorem SameConfig.refl (b : Block) : SameConfig b b := ⟨rfl, rfl, rfl, rfl⟩

@[simp] theorem SameSynth.refl (b : Block) : SameSynth b b := by simp [SameSynth]

@[simp] theorem SameDetector.refl (b : Block) : SameDetector b b := by simp [SameDetector]

theorem SameConfig.alphabet_eq {b c : Block} (h : SameConfig b c) : alphabet c = alphabet b := by
  rw [alphabet, alphabet, h.1]

theorem SameConfig.toneAt_eq {b c : Block} (h : SameConfig b c) (s : Nat) : toneAt c s = toneAt b s := by
  obtain ⟨-, -, -, htone⟩ := h
  rw [toneAt, toneAt, htone]

/-- Taking an error changes neither engine (R231). -/
theorem raise_sameSynth (e : Event) (c : Cause) (info : BitVec 8) (b : Block) :
    SameSynth b (raise e c info b) := by
  simp [SameSynth, SameConfig]

theorem raise_sameDetector (e : Event) (c : Cause) (info : BitVec 8) (b : Block) :
    SameDetector b (raise e c info b) := by
  simp [SameDetector, SameConfig]

theorem symInBlock_sameDetector (v : Byte) (b : Block) : SameDetector b (symInBlock v b) := by
  simp [SameDetector, SameConfig]

theorem synLoadBlock_sameDetector (b : Block) : SameDetector b (synLoadBlock b) := by
  cases hsi : b.si with
  | nil => simp [synLoadBlock, hsi]
  | cons v rest =>
    obtain ⟨-, h⟩ | ⟨-, h⟩ := synLoadBlock_cons hsi <;> rw [h] <;> simp [SameDetector, SameConfig]

/-- The end of a tone, with the idle check written as the events it sets (R160, R161). -/
theorem synIdleCheck_clearTone (b : Block) :
    ∃ m, synIdleCheck (clearTone { b with symcnt := b.symcnt + 1#32 }) =
      { b with synBusy := false, synSym := 0#6, synN := 0#16, symcnt := b.symcnt + 1#32
               events := b.events ||| m } := by
  unfold synIdleCheck
  split
  · exact ⟨_, rfl⟩
  · exact ⟨0#7, by simp [clearTone]⟩

theorem smpOutBlock_sameDetector (b : Block) : SameDetector b (smpOutBlock b) := by
  obtain ⟨m, hm⟩ := synIdleCheck_clearTone b
  obtain ⟨-, h⟩ | ⟨-, h⟩ := smpOutBlock_cases b
  · rw [h, hm]; simp [SameDetector, SameConfig]
  · rw [h]; simp [SameDetector, SameConfig]

theorem discardPartial_sameSynth (b : Block) : SameSynth b (discardPartial b) := by
  simp [SameSynth, SameConfig]

theorem flushBlock_sameSynth (b : Block) : SameSynth b (flushBlock b) := by
  unfold flushBlock
  split
  · exact discardPartial_sameSynth b
  · exact .refl b

theorem smpInBlock_sameSynth (x : Sample) (last : Bool) (b : Block) :
    SameSynth b (smpInBlock x last b) := by
  obtain ⟨-, h⟩ | ⟨-, -, h⟩ | ⟨-, -, h⟩ := smpInBlock_cases x last b <;> rw [h] <;>
    simp [SameSynth, SameConfig]

/-! ### The invariant, engine by engine (R26) -/

/-- The synthesizer's clauses of `Block.Inv`. -/
structure SynthInv (d : Config.Depths) (b : Block) : Prop where
  siFits : b.si.length ≤ d.dSi
  idle : b.active = false → b.si = [] ∧ b.synBusy = false ∧ b.synHalt = false
  toneIdle : b.synBusy = false → b.synSym = 0#6 ∧ b.synN = 0#16
  toneRunning : b.synBusy = true → b.synSym.toNat < alphabet b ∧ b.synN.toNat < b.sps.toNat
  haltedIsIdle : b.synHalt = true → b.synBusy = false

/-- The detector's clauses of `Block.Inv`. -/
structure DetectorInv (d : Config.Depths) (b : Block) : Prop where
  soFits : b.so.length ≤ d.dSo
  idle : b.active = false → b.detFill = 0#16
  windowOpen : b.active = true → b.detFill.toNat < b.sps.toNat
  accBounded : ∀ s, |accAt b s| ≤ b.detFill.toNat * maxProduct
  deadLanes : ∀ s, alphabet b ≤ s → accAt b s = 0
  symbolsLegal : b.active = true → ∀ x ∈ b.so, x.toNat < alphabet b

theorem Block.inv_iff {d : Config.Depths} {b : Block} :
    b.Inv d ↔ (b.active = true → ConfigValid b) ∧ SynthInv d b ∧ DetectorInv d b ∧ b.errCode.toNat ≤ 8 := by
  constructor
  · intro h
    refine ⟨h.configured, ⟨h.siFits, fun ha => ?_, h.toneIdle, h.toneRunning, h.haltedIsIdle⟩,
      ⟨h.soFits, fun ha => ?_, h.windowOpen, h.accBounded, h.deadLanes, h.symbolsLegal⟩, h.causeKnown⟩
    · obtain ⟨hsi, hbusy, hhalt, -⟩ := h.idle ha
      exact ⟨hsi, hbusy, hhalt⟩
    · obtain ⟨-, -, -, hfill⟩ := h.idle ha
      exact hfill
  · rintro ⟨hc, hs, hd, he⟩
    refine ⟨hs.siFits, hd.soFits, hc, fun ha => ?_, hs.toneIdle, hs.toneRunning, hs.haltedIsIdle,
      hd.windowOpen, hd.accBounded, hd.deadLanes, hd.symbolsLegal, he⟩
    obtain ⟨hsi, hbusy, hhalt⟩ := hs.idle ha
    exact ⟨hsi, hbusy, hhalt, hd.idle ha⟩

/-! Each part speaks only of what its engine reads or owns. -/

theorem ConfigValid.congr {b c : Block} (hcfg : SameConfig b c) (h : ConfigValid b) : ConfigValid c := by
  have htone := hcfg.toneAt_eq
  have halpha := hcfg.alphabet_eq
  obtain ⟨hbps, hsps, -, -⟩ := hcfg
  constructor
  · rw [hbps]; exact h.bpsLegal
  · rw [hsps]; exact h.spsLegal
  · simpa only [htone, halpha] using h.ftwLegal
  · simpa only [htone, halpha] using h.ftwDistinct

theorem SynthInv.congr {d : Config.Depths} {b c : Block} (hsame : SameSynth b c) (h : SynthInv d b) :
    SynthInv d c := by
  obtain ⟨hactive, hcfg, hsi, hbusy, hsym, hn, hhalt, -⟩ := hsame
  have halpha := hcfg.alphabet_eq
  obtain ⟨-, hsps, -, -⟩ := hcfg
  constructor
  · rw [hsi]; exact h.siFits
  · rw [hactive, hsi, hbusy, hhalt]; exact h.idle
  · rw [hbusy, hsym, hn]; exact h.toneIdle
  · rw [hbusy, hsym, hn, halpha, hsps]; exact h.toneRunning
  · rw [hhalt, hbusy]; exact h.haltedIsIdle

theorem DetectorInv.congr {d : Config.Depths} {b c : Block} (hsame : SameDetector b c)
    (h : DetectorInv d b) : DetectorInv d c := by
  obtain ⟨hactive, hcfg, hacc, hfill, hso, -, -⟩ := hsame
  have halpha := hcfg.alphabet_eq
  have haccAt (s : Nat) : accAt c s = accAt b s := by rw [accAt, accAt, hacc]
  obtain ⟨-, hsps, -, -⟩ := hcfg
  constructor
  · rw [hso]; exact h.soFits
  · rw [hactive, hfill]; exact h.idle
  · rw [hactive, hfill, hsps]; exact h.windowOpen
  · simpa only [haccAt, hfill] using h.accBounded
  · simpa only [haccAt, halpha] using h.deadLanes
  · rw [hactive, hso, halpha]; exact h.symbolsLegal

/-- An operation of the synthesizer's side has only the synthesizer's clauses to keep. -/
theorem Block.Inv.of_sameDetector {d : Config.Depths} {b c : Block} (h : b.Inv d)
    (hsame : SameDetector b c) (hsynth : SynthInv d c) (herr : c.errCode.toNat ≤ 8) : c.Inv d := by
  obtain ⟨hcfg, -, hdet, -⟩ := Block.inv_iff.1 h
  have hdet' := hdet.congr hsame
  obtain ⟨hactive, hsameCfg, -⟩ := hsame
  exact Block.inv_iff.2 ⟨fun ha => (hcfg (hactive ▸ ha)).congr hsameCfg, hsynth, hdet', herr⟩

/-- An operation of the detector's side has only the detector's clauses to keep. -/
theorem Block.Inv.of_sameSynth {d : Config.Depths} {b c : Block} (h : b.Inv d)
    (hsame : SameSynth b c) (hdet : DetectorInv d c) (herr : c.errCode.toNat ≤ 8) : c.Inv d := by
  obtain ⟨hcfg, hsynth, -, -⟩ := Block.inv_iff.1 h
  have hsynth' := hsynth.congr hsame
  obtain ⟨hactive, hsameCfg, -⟩ := hsame
  exact Block.inv_iff.2 ⟨fun ha => (hcfg (hactive ▸ ha)).congr hsameCfg, hsynth', hdet, herr⟩

/-! ### The engines at rest -/

theorem SynthInv.of_empty {d : Config.Depths} {b : Block} (hsi : b.si = []) (hbusy : b.synBusy = false)
    (hsym : b.synSym = 0#6) (hn : b.synN = 0#16) (hhalt : b.synHalt = false) : SynthInv d b := by
  constructor <;> simp [hsi, hbusy, hsym, hn, hhalt]

/-- At a window boundary the clauses about the open window hold by themselves. -/
theorem DetectorInv.of_boundary {d : Config.Depths} {b : Block} (hfits : b.so.length ≤ d.dSo)
    (hfill : b.detFill = 0#16) (hacc : ∀ s, accAt b s = 0) (hsps : b.active = true → 1 ≤ b.sps.toNat)
    (hlegal : b.active = true → ∀ x ∈ b.so, x.toNat < alphabet b) : DetectorInv d b where
  soFits := hfits
  idle _ := hfill
  windowOpen ha := by simpa [hfill, Nat.one_le_iff_ne_zero, Nat.pos_iff_ne_zero] using hsps ha
  accBounded s := by simp [hacc s, hfill]
  deadLanes s _ := hacc s
  symbolsLegal := hlegal

/-- Outside a session the accumulators are 0, because the window is empty (R183). -/
theorem Block.Inv.accAt_eq_zero {d : Config.Depths} {b : Block} (h : b.Inv d) (hfill : b.detFill = 0#16)
    (s : Nat) : accAt b s = 0 := by
  simpa [hfill] using h.accBounded s

/-- Outside a session the configuration may hold anything (R109, R111, R125). -/
theorem Block.Inv.configure {d : Config.Depths} {b : Block} (h : b.Inv d) (ha : b.active = false)
    (bps : BitVec 3) (sps : BitVec 16) (srcRate : Word) (tone : Lanes Word) :
    Block.Inv d { b with bps := bps, sps := sps, srcRate := srcRate, tone := tone } := by
  obtain ⟨hsi, hbusy, hhalt, hfill⟩ := h.idle ha
  obtain ⟨hsym, hn⟩ := h.toneIdle hbusy
  exact Block.inv_iff.2 ⟨by simp [ha], .of_empty hsi hbusy hsym hn hhalt,
    .of_boundary h.soFits hfill (h.accAt_eq_zero hfill) (by simp [ha]) (by simp [ha]), h.causeKnown⟩

/-! ### Errors, events and the interrupt mask keep the invariant -/

/-- R233: codes 9 to 15 are never produced. -/
theorem Cause.code_le (c : Cause) : c.code.toNat ≤ 8 := by
  cases c <;> decide

theorem Block.Inv.of_sameEngines {d : Config.Depths} {b c : Block} (h : b.Inv d) (hs : SameSynth b c)
    (hd : SameDetector b c) (herr : c.errCode.toNat ≤ 8) : c.Inv d := by
  obtain ⟨-, hsynth, -, -⟩ := Block.inv_iff.1 h
  exact h.of_sameDetector hd (hsynth.congr hs) herr

theorem Block.Inv.raise {d : Config.Depths} {b : Block} (h : b.Inv d) (e : Event) (c : Cause)
    (info : BitVec 8) : (raise e c info b).Inv d :=
  h.of_sameEngines (raise_sameSynth e c info b) (raise_sameDetector e c info b) c.code_le

theorem Block.Inv.clearEvents {d : Config.Depths} {b : Block} (h : b.Inv d) (mask : BitVec 7) :
    (clearEvents mask b).Inv d :=
  h.of_sameEngines (by simp [SameSynth, SameConfig]) (by simp [SameDetector, SameConfig]) h.causeKnown

theorem Block.Inv.setIrqEn {d : Config.Depths} {b : Block} (h : b.Inv d) (mask : BitVec 7) :
    Block.Inv d { b with irqEn := mask } :=
  h.of_sameEngines (by simp [SameSynth, SameConfig]) (by simp [SameDetector, SameConfig]) h.causeKnown

/-- A write to a locked register keeps the invariant if its store does so outside a session (R126). -/
theorem Block.Inv.writeRwl {d : Config.Depths} {b : Block} (h : b.Inv d) (addr : BitVec 9)
    {store : Block → Block} (hstore : b.active = false → (store b).Inv d) :
    (writeRwl addr store b).Inv d := by
  obtain ⟨-, hw⟩ | ⟨ha, hw⟩ := writeRwl_cases addr store b <;> rw [hw]
  · exact h.raise _ _ _
  · exact hstore ha

/-! ### The commands keep the invariant -/

theorem startSession_inv (d : Config.Depths) {b : Block} (hv : ConfigValid b)
    (herr : b.errCode.toNat ≤ 8) : (startSession b).Inv d := by
  have hcfg : SameConfig b (startSession b) := by simp [SameConfig]
  have hv' := hv.congr hcfg
  exact Block.inv_iff.2 ⟨fun _ => hv', .of_empty (by simp) (by simp) (by simp) (by simp) (by simp),
    .of_boundary (by simp) (by simp) (by simp [accAt]) (fun _ => hv'.spsLegal) (by simp), by simpa⟩

theorem Block.Inv.startBlock {d : Config.Depths} {b : Block} (h : b.Inv d) : (startBlock b).Inv d := by
  obtain ⟨-, hs⟩ | ⟨-, c, info, -, hs⟩ | ⟨-, hv, hs⟩ := startBlock_cases b <;> rw [hs]
  · exact h.raise _ _ _
  · exact h.raise _ _ _
  · exact startSession_inv d ((validateConfig_eq_none b).1 hv) h.causeKnown

theorem Block.Inv.stopBlock {d : Config.Depths} {b : Block} (h : b.Inv d) : (stopBlock b).Inv d :=
  Block.inv_iff.2 ⟨by simp, .of_empty (by simp) (by simp) (by simp) (by simp) (by simp),
    .of_boundary (by simpa using h.soFits) (by simp) (by simp [accAt]) (by simp) (by simp),
    by simpa using h.causeKnown⟩

theorem Block.Inv.flushBlock {d : Config.Depths} {b : Block} (h : b.Inv d) : (flushBlock b).Inv d := by
  unfold Machine.flushBlock
  split
  · refine h.of_sameSynth (discardPartial_sameSynth b) ?_ h.causeKnown
    exact .of_boundary h.soFits rfl (by simp [accAt]) (fun ha => (h.configured ha).spsLegal) h.symbolsLegal
  · exact h

/-! ### The synthesizer's operations keep the invariant -/

theorem Block.Inv.symInBlock {d : Config.Depths} {b : Block} (h : b.Inv d) (v : Byte)
    (hready : symInReady d b = true) : (symInBlock v b).Inv d := by
  simp only [symInReady, Bool.and_eq_true, decide_eq_true_eq] at hready
  obtain ⟨⟨hactive, -⟩, hroom⟩ := hready
  refine h.of_sameDetector (symInBlock_sameDetector v b) ?_ h.causeKnown
  exact ⟨by simpa using hroom, by simp [hactive], h.toneIdle, h.toneRunning, h.haltedIsIdle⟩

theorem Block.Inv.synLoadBlock {d : Config.Depths} {b : Block} (h : b.Inv d)
    (hen : synLoadEnabled b = true) : (synLoadBlock b).Inv d := by
  simp only [synLoadEnabled, Bool.and_eq_true, Bool.not_eq_true', decide_eq_true_eq] at hen
  obtain ⟨⟨⟨hactive, hhalt⟩, hbusy⟩, hne⟩ := hen
  obtain ⟨v, rest, hsi⟩ := List.exists_cons_of_length_pos hne
  have hrest : rest.length ≤ d.dSi := by
    have := h.siFits
    rw [hsi, List.length_cons] at this
    omega
  have hsame := synLoadBlock_sameDetector b
  obtain ⟨-, hl⟩ | ⟨hlt, hl⟩ := synLoadBlock_cons hsi <;> rw [hl] at hsame ⊢
  · exact h.of_sameDetector hsame
      ⟨hrest, by simp [hactive], by simpa [hbusy] using h.toneIdle, by simp [hbusy], by simp [hbusy]⟩
      (Cause.code_le _)
  · refine h.of_sameDetector hsame
      ⟨hrest, by simp [hactive], by simp, fun _ => ⟨?_, (h.configured hactive).spsLegal⟩, by simp [hhalt]⟩
      h.causeKnown
    exact lt_of_le_of_lt (by simpa using Nat.mod_le _ _) hlt

theorem Block.Inv.smpOutBlock {d : Config.Depths} {b : Block} (h : b.Inv d)
    (hvalid : smpOutValid b = true) : (smpOutBlock b).Inv d := by
  simp only [smpOutValid, Bool.and_eq_true] at hvalid
  obtain ⟨hactive, hbusy⟩ := hvalid
  have hsame := smpOutBlock_sameDetector b
  obtain ⟨-, hl⟩ | ⟨hne, hl⟩ := smpOutBlock_cases b
  · obtain ⟨m, hm⟩ := synIdleCheck_clearTone b
    rw [hl, hm] at hsame ⊢
    exact h.of_sameDetector hsame ⟨h.siFits, by simp [hactive], by simp, by simp, by simp⟩ h.causeKnown
  · rw [hl] at hsame ⊢
    obtain ⟨hsym, hn⟩ := h.toneRunning hbusy
    refine h.of_sameDetector hsame
      ⟨h.siFits, by simp [hactive], by simp [hbusy], fun _ => ⟨hsym, ?_⟩, h.haltedIsIdle⟩ h.causeKnown
    bv_omega

/-! ### The detector's operations keep the invariant -/

/-- A sample that does not complete the window leaves it open (R185). -/
theorem accumulate_detectorInv {d : Config.Depths} {b : Block} (h : b.Inv d) (hactive : b.active = true)
    (x : Sample) (hne : b.detFill + 1#16 ≠ b.sps) :
    DetectorInv d (accumulate (sampleValue x) b) := by
  have hopen := h.windowOpen hactive
  have hfill : (b.detFill + 1#16).toNat = b.detFill.toNat + 1 := by bv_omega
  refine ⟨h.soFits, by simp [hactive], fun _ => ?_, fun s => ?_, fun s hs => ?_, h.symbolsLegal⟩
  · simp only [accumulate_detFill, accumulate_sps]
    bv_omega
  · simpa [hfill] using abs_accAt_accumulate_le x h.accBounded s
  · rw [alphabet_accumulate] at hs
    exact accAt_accumulate_dead _ hs (h.deadLanes s hs)

theorem windowComplete_symbolsLegal (b : Block) (h : ∀ x ∈ b.so, x.toNat < alphabet b) :
    ∀ x ∈ (windowComplete b).so, x.toNat < alphabet b := by
  intro x hx
  rw [windowComplete_so, List.mem_append, List.mem_singleton] at hx
  rcases hx with hx | rfl
  · exact h x hx
  · rw [BitVec.toNat_ofNat]
    exact lt_of_le_of_lt (Nat.mod_le _ _) (argmaxLowest_lt _ (alphabet_pos b))

theorem Block.Inv.smpInBlock {d : Config.Depths} {b : Block} (h : b.Inv d) (x : Sample) (last : Bool)
    (hready : smpInReady d b = true) : (smpInBlock x last b).Inv d := by
  simp only [smpInReady, Bool.and_eq_true, decide_eq_true_eq] at hready
  obtain ⟨hactive, hroom⟩ := hready
  have hsps := (h.configured hactive).spsLegal
  have hlegal := h.symbolsLegal hactive
  have hsame := smpInBlock_sameSynth x last b
  obtain ⟨-, hb⟩ | ⟨-, -, hb⟩ | ⟨hne, -, hb⟩ := smpInBlock_cases x last b <;> rw [hb] at hsame ⊢ <;>
    refine h.of_sameSynth hsame ?_ h.causeKnown
  · exact .of_boundary (by simpa using hroom) rfl (by simp [accAt]) (fun _ => hsps)
      fun _ => windowComplete_symbolsLegal (accumulate _ b) hlegal
  · exact .of_boundary h.soFits rfl (by simp [accAt]) (fun _ => hsps) fun _ => hlegal
  · exact accumulate_detectorInv h hactive x hne

theorem Block.Inv.popSo {d : Config.Depths} {b : Block} (h : b.Inv d) :
    Block.Inv d { b with so := b.so.tail } := by
  refine h.of_sameSynth (by simp [SameSynth, SameConfig]) ?_ h.causeKnown
  obtain ⟨-, -, hdet, -⟩ := Block.inv_iff.1 h
  have hfits := hdet.soFits
  exact ⟨by simp; omega, hdet.idle, hdet.windowOpen, hdet.accBounded, hdet.deadLanes,
    fun ha x hx => hdet.symbolsLegal ha x (List.mem_of_mem_tail hx)⟩

/-! ### Every operation keeps the invariant -/

theorem Block.Inv.blockAfter {d : Config.Depths} {b : Block} (h : b.Inv d) (i : Instr) :
    (blockAfter d i b).Inv d := by
  cases i
  case start => exact h.startBlock
  case stop => exact h.stopBlock
  case flush => exact h.flushBlock
  case cmdIllegal w => exact h.raise _ _ _
  case wrCfg w =>
    rw [Machine.blockAfter]
    refine h.writeRwl _ fun ha => ?_
    exact h.configure ha (bpsField w) b.sps b.srcRate b.tone
  case wrSps w =>
    rw [Machine.blockAfter]
    refine h.writeRwl _ fun ha => ?_
    exact h.configure ha b.bps (spsField w) b.srcRate b.tone
  case wrSrcRate w =>
    rw [Machine.blockAfter]
    refine h.writeRwl _ fun ha => ?_
    exact h.configure ha b.bps b.sps w b.tone
  case wrTone k w =>
    rw [Machine.blockAfter]
    refine h.writeRwl _ fun ha => ?_
    exact h.configure ha b.bps b.sps b.srcRate (setTone b.tone k w)
  case wrEvents w => exact h.clearEvents _
  case wrIrqEn w => exact h.setIrqEn _
  case symIn v => exact keeps_ite (Block.Inv d) (h.symInBlock v) h
  case smpOut => exact keeps_ite (Block.Inv d) h.smpOutBlock h
  case smpIn x last => exact keeps_ite (Block.Inv d) (h.smpInBlock x last) h
  case symOut => exact h.popSo
  case synLoad => exact keeps_ite (Block.Inv d) h.synLoadBlock h
  all_goals exact h

/-- Settles O55: what a step does to the block is what one operation does (`step_blk`), and every operation
keeps the invariant. -/
theorem stepKeepsInvariant : Obligations.StepKeepsInvariant := by
  rintro s t ⟨hdepths, hblk⟩ hstep
  obtain ⟨i, hi⟩ := step_blk hstep
  rw [State.Inv, step_depths hstep, hi]
  exact ⟨hdepths, hblk.blockAfter i⟩

/-! ### Reset (R46) -/

/-- Settles O8. -/
theorem resetValues : Obligations.ResetValues := by
  have htone (k : Fin 64) : State.reset.blk.tone[k] = 0#32 := Vector.getElem_replicate k.isLt
  have hacc (k : Fin 64) : State.reset.blk.acc[k] = 0 := Vector.getElem_replicate k.isLt
  exact ⟨rfl, htone, rfl, rfl, rfl, rfl, rfl, rfl, rfl, rfl, hacc, rfl, rfl, rfl, rfl, rfl, rfl, rfl, rfl,
    rfl, rfl⟩

/-- Settles O10: after reset both engines are at rest and no session is active. -/
theorem resetMeetsInvariant : Obligations.ResetMeetsInvariant := by
  have hacc (s : Nat) : accAt State.reset.blk s = 0 := laneD_accZero s
  have hidle : State.reset.blk.active ≠ true := by decide
  exact ⟨by decide, Block.inv_iff.2 ⟨fun ha => absurd ha hidle, .of_empty rfl rfl rfl rfl rfl,
    .of_boundary (by decide) rfl hacc (fun ha => absurd ha hidle) (fun ha => absurd ha hidle), by decide⟩⟩

/-! ### Events are sticky (R34) -/

/-- Every event set in `b` is set in `c`. -/
def EventsKept (b c : Block) : Prop := ∀ k, b.events.getLsbD k = true → c.events.getLsbD k = true

theorem EventsKept.of_eq {b c : Block} (h : c.events = b.events) : EventsKept b c :=
  fun k hk => by rwa [h]

theorem EventsKept.of_or {b c : Block} (m : BitVec 7) (h : c.events = b.events ||| m) : EventsKept b c :=
  fun k hk => by rw [h, BitVec.getLsbD_or, hk, Bool.true_or]

theorem raise_eventsKept (e : Event) (c : Cause) (info : BitVec 8) (b : Block) :
    EventsKept b (raise e c info b) :=
  .of_or e.mask rfl

theorem writeRwl_eventsKept (addr : BitVec 9) {store : Block → Block} {b : Block}
    (h : (store b).events = b.events) : EventsKept b (writeRwl addr store b) := by
  obtain ⟨-, hw⟩ | ⟨-, hw⟩ := writeRwl_cases addr store b <;> rw [hw]
  · exact raise_eventsKept _ _ _ _
  · exact .of_eq h

theorem startBlock_eventsKept (b : Block) : EventsKept b (startBlock b) := by
  obtain ⟨-, hs⟩ | ⟨-, c, info, -, hs⟩ | ⟨-, -, hs⟩ := startBlock_cases b <;> rw [hs]
  · exact raise_eventsKept _ _ _ _
  · exact raise_eventsKept _ _ _ _
  · by_cases hr : b.srcRate = 22050#32
    · exact .of_eq (by rw [startSession_events, if_pos hr])
    · exact .of_or Event.warnSrmm.mask (by rw [startSession_events, if_neg hr])

theorem stopBlock_eventsKept (b : Block) : EventsKept b (stopBlock b) := by
  by_cases hf : b.detFill = 0#16
  · exact .of_eq (by rw [stopBlock_events, if_pos hf])
  · exact .of_or Event.detDrop.mask (by rw [stopBlock_events, if_neg hf])

theorem flushBlock_eventsKept (b : Block) : EventsKept b (flushBlock b) := by
  unfold flushBlock
  split
  · exact .of_or Event.detDrop.mask rfl
  · exact .of_eq rfl

theorem synLoadBlock_eventsKept (b : Block) : EventsKept b (synLoadBlock b) := by
  cases hsi : b.si with
  | nil => exact .of_eq (by simp [synLoadBlock, hsi])
  | cons v rest =>
    obtain ⟨-, hl⟩ | ⟨-, hl⟩ := synLoadBlock_cons hsi <;> rw [hl]
    · exact .of_or Event.errSor.mask rfl
    · exact .of_eq rfl

theorem smpOutBlock_eventsKept (b : Block) : EventsKept b (smpOutBlock b) := by
  obtain ⟨-, hl⟩ | ⟨-, hl⟩ := smpOutBlock_cases b
  · obtain ⟨m, hm⟩ := synIdleCheck_clearTone b
    rw [hl, hm]
    exact .of_or m rfl
  · rw [hl]
    exact .of_eq rfl

theorem smpInBlock_eventsKept (x : Sample) (last : Bool) (b : Block) :
    EventsKept b (smpInBlock x last b) := by
  obtain ⟨-, hb⟩ | ⟨-, -, hb⟩ | ⟨-, -, hb⟩ := smpInBlock_cases x last b <;> rw [hb]
  · exact .of_or Event.detSym.mask rfl
  · exact .of_or Event.detDrop.mask rfl
  · exact .of_eq rfl

theorem blockAfter_eventsKept (d : Config.Depths) {i : Instr} (b : Block) (hi : ∀ x, i ≠ .wrEvents x) :
    EventsKept b (blockAfter d i b) := by
  cases i
  case start => exact startBlock_eventsKept b
  case stop => exact stopBlock_eventsKept b
  case flush => exact flushBlock_eventsKept b
  case cmdIllegal w => exact raise_eventsKept _ _ _ _
  case wrCfg w => exact writeRwl_eventsKept _ rfl
  case wrSps w => exact writeRwl_eventsKept _ rfl
  case wrSrcRate w => exact writeRwl_eventsKept _ rfl
  case wrTone k w => exact writeRwl_eventsKept _ rfl
  case wrEvents x => exact absurd rfl (hi x)
  case symIn v => exact keeps_ite (EventsKept b) (fun _ => .of_eq rfl) (.of_eq rfl)
  case smpOut => exact keeps_ite (EventsKept b) (fun _ => smpOutBlock_eventsKept b) (.of_eq rfl)
  case smpIn x last => exact keeps_ite (EventsKept b) (fun _ => smpInBlock_eventsKept x last b) (.of_eq rfl)
  case synLoad => exact keeps_ite (EventsKept b) (fun _ => synLoadBlock_eventsKept b) (.of_eq rfl)
  all_goals exact .of_eq rfl

/-- Settles O50. -/
theorem eventsAreSticky : Obligations.EventsAreSticky := by
  intro i s t hi hexec k _ hk
  rw [exec_blk hexec]
  exact blockAfter_eventsKept s.depths s.blk hi k hk

/-! ### ERRINFO follows its event (R36, R231, R233) -/

theorem Event.getLsbD_mask (e : Event) : e.mask.getLsbD e.bit = true := by
  cases e <;> rfl

theorem raise_sets_bit (e : Event) (c : Cause) (info : BitVec 8) (b : Block) :
    (raise e c info b).events.getLsbD e.bit = true := by
  rw [raise_events, BitVec.getLsbD_or, e.getLsbD_mask, Bool.or_true]

theorem opField_eq (w : Word) : opField w = BitVec.ofNat 8 (w.toNat % 256) := by
  apply BitVec.eq_of_toNat_eq
  simp [opField]

/-- INFO of a locked write to TONE[k] (R126). -/
theorem wordIndex_toneOffset (k : BitVec 6) :
    wordIndex (toneOffset k) = BitVec.ofNat 8 (64 + k.toNat) := by
  revert k
  decide

theorem writeRwl_of_active {addr : BitVec 9} (store : Block → Block) {b : Block} {info : BitVec 8}
    (ha : b.active = true) (hinfo : wordIndex addr = info) :
    ∃ e c b', writeRwl addr store b = raise e c info b' ∧ 8#4 = c.code ∧ 5 = e.bit :=
  ⟨.errAccess, .lockedWrite, b, by rw [writeRwl, if_pos ha, lockedWrite, hinfo], rfl, rfl⟩

theorem startBlock_of_validateConfig {b : Block} {c : Cause} {info : BitVec 8} (ha : b.active = false)
    (hv : validateConfig b = some (c, info)) : startBlock b = raise .errCfg c info b := by
  simp [startBlock, ha, hv]

theorem startBlock_of_raises {b : Block} {code : BitVec 4} {info : BitVec 8} {bit : Nat}
    (h : Raises b .start code info bit) :
    ∃ e c, startBlock b = raise e c info b ∧ code = c.code ∧ bit = e.bit := by
  cases ha : b.active with
  | false =>
    obtain ⟨c, hv, hcode, hbit⟩ := validateConfig_of_raises ha h
    exact ⟨.errCfg, c, startBlock_of_validateConfig ha hv, hcode, hbit⟩
  | true =>
    cases h with
    | cmdState _ => exact ⟨.errAccess, .cmdState, if_pos ha, rfl, rfl⟩
    | cfgBps hidle | cfgSps hidle | cfgFtwRange _ hidle | cfgFtwDup _ hidle => simp [ha] at hidle

theorem synLoad_of_raises (d : Config.Depths) {b : Block} {v : Byte} {rest : List Byte}
    (hen : synLoadEnabled b = true) (hsi : b.si = v :: rest) (hv : alphabet b ≤ v.toNat) :
    blockAfter d .synLoad b = raise .errSor .sor v { b with si := rest, synHalt := true } := by
  obtain ⟨-, hl⟩ | ⟨hlt, -⟩ := synLoadBlock_cons hsi
  · rw [← hl]
    exact if_pos hen
  · omega

/-- An operation in R233's table takes just that error, on the block or, for SYN_LOAD, on the halted block
with the symbol taken off `si`. -/
theorem blockAfter_of_raises (d : Config.Depths) {i : Instr} {b : Block} {code : BitVec 4}
    {info : BitVec 8} {bit : Nat} (h : Raises b i code info bit) :
    ∃ e c b', blockAfter d i b = raise e c info b' ∧ code = c.code ∧ bit = e.bit := by
  have hraise := h
  cases h with
  | cfgBps | cfgSps | cfgFtwRange | cfgFtwDup | cmdState =>
    obtain ⟨e, c, hs, hcode, hbit⟩ := startBlock_of_raises hraise
    exact ⟨e, c, b, hs, hcode, hbit⟩
  | sor v rest hen hsi hv => exact ⟨.errSor, .sor, _, synLoad_of_raises d hen hsi hv, rfl, rfl⟩
  | cmdIllegal w => exact ⟨.errAccess, .cmdIllegal, b, by rw [← opField_eq]; rfl, rfl, rfl⟩
  | lockedCfg x ha => rw [blockAfter]; exact writeRwl_of_active _ ha rfl
  | lockedSps x ha => rw [blockAfter]; exact writeRwl_of_active _ ha rfl
  | lockedSrcRate x ha => rw [blockAfter]; exact writeRwl_of_active _ ha rfl
  | lockedTone k x ha => rw [blockAfter]; exact writeRwl_of_active _ ha (wordIndex_toneOffset k)

/-- ERRINFO reads the same in both blocks. -/
def ErrInfoKept (b c : Block) : Prop := c.errCode = b.errCode ∧ c.errInfo = b.errInfo

/-- R233's table has a row for the operation in this block. -/
def RaisesSome (b : Block) (i : Instr) : Prop := ∃ code info bit, Raises b i code info bit

/-- An operation that takes `b` to `c` is in R233's table or leaves ERRINFO as it was. -/
def RaisesOrKeeps (i : Instr) (b c : Block) : Prop := RaisesSome b i ∨ ErrInfoKept b c

theorem RaisesOrKeeps.keep {i : Instr} {b c : Block} (h : ErrInfoKept b c) : RaisesOrKeeps i b c := .inr h

theorem RaisesOrKeeps.raise {i : Instr} {b c : Block} {code : BitVec 4} {info : BitVec 8} {bit : Nat}
    (h : Raises b i code info bit) : RaisesOrKeeps i b c := .inl ⟨code, info, bit, h⟩

theorem startBlock_raises_or_keeps (b : Block) :
    RaisesOrKeeps .start b (startBlock b) := by
  obtain ⟨ha, -⟩ | ⟨ha, c, info, hv, -⟩ | ⟨-, -, hs⟩ := startBlock_cases b
  · exact .raise (.cmdState ha)
  · exact .raise (raises_of_validateConfig ha hv)
  · rw [hs]
    exact .keep ⟨startSession_errCode b, startSession_errInfo b⟩

theorem writeRwl_raises_or_keeps {i : Instr} {code : BitVec 4} {info : BitVec 8} {bit : Nat}
    (addr : BitVec 9) {store : Block → Block} {b : Block}
    (hraise : b.active = true → Raises b i code info bit) (hstore : ErrInfoKept b (store b)) :
    RaisesOrKeeps i b (writeRwl addr store b) := by
  obtain ⟨ha, -⟩ | ⟨-, hw⟩ := writeRwl_cases addr store b
  · exact .raise (hraise ha)
  · rw [hw]
    exact .keep hstore

theorem flushBlock_errInfoKept (b : Block) : ErrInfoKept b (flushBlock b) := by
  unfold flushBlock
  split <;> exact ⟨rfl, rfl⟩

theorem synLoadBlock_raises_or_keeps {b : Block} (hen : synLoadEnabled b = true) :
    RaisesOrKeeps .synLoad b (synLoadBlock b) := by
  cases hsi : b.si with
  | nil => exact .keep (by simp [synLoadBlock, hsi, ErrInfoKept])
  | cons v rest =>
    obtain ⟨hv, -⟩ | ⟨-, hl⟩ := synLoadBlock_cons hsi
    · exact .raise (.sor v rest hen hsi hv)
    · rw [hl]
      exact .keep ⟨rfl, rfl⟩

theorem smpOutBlock_errInfoKept (b : Block) : ErrInfoKept b (smpOutBlock b) := by
  obtain ⟨-, hl⟩ | ⟨-, hl⟩ := smpOutBlock_cases b
  · obtain ⟨m, hm⟩ := synIdleCheck_clearTone b
    rw [hl, hm]
    exact ⟨rfl, rfl⟩
  · rw [hl]
    exact ⟨rfl, rfl⟩

theorem smpInBlock_errInfoKept (x : Sample) (last : Bool) (b : Block) :
    ErrInfoKept b (smpInBlock x last b) := by
  obtain ⟨-, hb⟩ | ⟨-, -, hb⟩ | ⟨-, -, hb⟩ := smpInBlock_cases x last b <;> rw [hb] <;> exact ⟨rfl, rfl⟩

/-- R233's table is complete: whatever is not in it leaves ERRINFO as it was. -/
theorem blockAfter_raises_or_keeps (d : Config.Depths) (i : Instr) (b : Block) :
    RaisesOrKeeps i b (blockAfter d i b) := by
  cases i
  case start => exact startBlock_raises_or_keeps b
  case stop => exact .keep ⟨stopBlock_errCode b, stopBlock_errInfo b⟩
  case flush => exact .keep (flushBlock_errInfoKept b)
  case cmdIllegal w => exact .raise (.cmdIllegal w)
  case wrCfg w => exact writeRwl_raises_or_keeps _ (.lockedCfg w) ⟨rfl, rfl⟩
  case wrSps w => exact writeRwl_raises_or_keeps _ (.lockedSps w) ⟨rfl, rfl⟩
  case wrSrcRate w => exact writeRwl_raises_or_keeps _ (.lockedSrcRate w) ⟨rfl, rfl⟩
  case wrTone k w => exact writeRwl_raises_or_keeps _ (.lockedTone k w) ⟨rfl, rfl⟩
  case symIn v => exact keeps_ite (RaisesOrKeeps _ b) (fun _ => .keep ⟨rfl, rfl⟩) (.keep ⟨rfl, rfl⟩)
  case smpOut => exact keeps_ite (RaisesOrKeeps _ b) (fun _ => .keep (smpOutBlock_errInfoKept b)) (.keep ⟨rfl, rfl⟩)
  case smpIn x last =>
    exact keeps_ite (RaisesOrKeeps _ b) (fun _ => .keep (smpInBlock_errInfoKept x last b)) (.keep ⟨rfl, rfl⟩)
  case synLoad => exact keeps_ite (RaisesOrKeeps _ b) synLoadBlock_raises_or_keeps (.keep ⟨rfl, rfl⟩)
  all_goals exact .keep ⟨rfl, rfl⟩

/-- Settles O51. -/
theorem errInfoFollowsItsEvent : Obligations.ErrInfoFollowsItsEvent := by
  intro i s t hexec
  rw [exec_blk hexec]
  constructor
  · intro code info bit h
    obtain ⟨e, c, b', hb, rfl, rfl⟩ := blockAfter_of_raises s.depths h
    rw [hb]
    exact ⟨raise_errCode .., raise_errInfo .., raise_sets_bit ..⟩
  · intro hnone
    obtain ⟨code, info, bit, h⟩ | hkept := blockAfter_raises_or_keeps s.depths i s.blk
    · exact absurd h (hnone code info bit)
    · exact hkept

/-! ### The session rule (R25) -/

/-- `c` has the session flag of `b` and, while that is set, its configuration too. -/
def SessionKept (b c : Block) : Prop := c.active = b.active ∧ (b.active = true → SameConfig b c)

theorem SessionKept.of_same {b c : Block} (ha : c.active = b.active) (hc : SameConfig b c) :
    SessionKept b c :=
  ⟨ha, fun _ => hc⟩

theorem SessionKept.refl (b : Block) : SessionKept b b := .of_same rfl (SameConfig.refl b)

theorem SameDetector.sessionKept {b c : Block} (h : SameDetector b c) : SessionKept b c := by
  obtain ⟨ha, hc, -⟩ := h
  exact .of_same ha hc

theorem SameSynth.sessionKept {b c : Block} (h : SameSynth b c) : SessionKept b c := by
  obtain ⟨ha, hc, -⟩ := h
  exact .of_same ha hc

theorem writeRwl_sessionKept (addr : BitVec 9) {store : Block → Block} {b : Block}
    (h : (store b).active = b.active) : SessionKept b (writeRwl addr store b) := by
  obtain ⟨-, hw⟩ | ⟨ha, hw⟩ := writeRwl_cases addr store b <;> rw [hw]
  · exact (raise_sameDetector _ _ _ b).sessionKept
  · exact ⟨h, by simp [ha]⟩

/-- START either begins a session with a valid configuration or is refused. -/
theorem startBlock_session (b : Block) :
    b.active = false ∧ ConfigValid b ∨ SessionKept b (startBlock b) := by
  obtain ⟨-, hs⟩ | ⟨-, c, info, -, hs⟩ | ⟨ha, hv, -⟩ := startBlock_cases b
  · rw [hs]; exact .inr (raise_sameDetector _ _ _ b).sessionKept
  · rw [hs]; exact .inr (raise_sameDetector _ _ _ b).sessionKept
  · exact .inl ⟨ha, (validateConfig_eq_none b).1 hv⟩

/-- Every operation but START and STOP keeps the session. -/
theorem blockAfter_sessionKept (d : Config.Depths) {i : Instr} (b : Block) (hstart : i ≠ .start)
    (hstop : i ≠ .stop) : SessionKept b (blockAfter d i b) := by
  cases i
  case start => exact absurd rfl hstart
  case stop => exact absurd rfl hstop
  case flush => exact (flushBlock_sameSynth b).sessionKept
  case cmdIllegal w => exact (raise_sameSynth _ _ _ b).sessionKept
  case wrCfg w => exact writeRwl_sessionKept _ rfl
  case wrSps w => exact writeRwl_sessionKept _ rfl
  case wrSrcRate w => exact writeRwl_sessionKept _ rfl
  case wrTone k w => exact writeRwl_sessionKept _ rfl
  case symIn v => exact keeps_ite (SessionKept b) (fun _ => (symInBlock_sameDetector v b).sessionKept) (.refl b)
  case smpOut => exact keeps_ite (SessionKept b) (fun _ => (smpOutBlock_sameDetector b).sessionKept) (.refl b)
  case smpIn x last => exact keeps_ite (SessionKept b) (fun _ => (smpInBlock_sameSynth x last b).sessionKept) (.refl b)
  case synLoad => exact keeps_ite (SessionKept b) (fun _ => (synLoadBlock_sameDetector b).sessionKept) (.refl b)
  all_goals exact .refl b

/-- What an operation can do to the session: begin it, end it or keep it (R25). -/
theorem blockAfter_session_cases (d : Config.Depths) (i : Instr) (b : Block) :
    (i = .start ∧ b.active = false ∧ ConfigValid b) ∨
    (i = .stop ∧ (blockAfter d i b).active = false ∧ SameConfig b (blockAfter d i b)) ∨
    SessionKept b (blockAfter d i b) := by
  by_cases hstart : i = .start
  · subst hstart
    obtain ⟨ha, hv⟩ | hkept := startBlock_session b
    · exact .inl ⟨rfl, ha, hv⟩
    · exact .inr (.inr hkept)
  by_cases hstop : i = .stop
  · subst hstop
    exact .inr (.inl ⟨rfl, stopBlock_active b, stopBlock_bps b, stopBlock_sps b, stopBlock_srcRate b,
      stopBlock_tone b⟩)
  exact .inr (.inr (blockAfter_sessionKept d b hstart hstop))

/-- Outside a session no stream port but M_SYM_OUT is ready or valid, and SYN_LOAD is not enabled (R157,
R184). -/
theorem not_enabled_of_inactive (d : Config.Depths) {i : Instr} {b : Block} (ha : b.active = false)
    {v : Byte} {x : Sample} {last : Bool}
    (hi : i = .symIn v ∨ i = .smpOut ∨ i = .smpIn x last ∨ i = .synLoad) : enabled d b i = false := by
  rcases hi with rfl | rfl | rfl | rfl
  · simp [enabled, symInReady, ha]
  · simp [enabled, smpOutValid, ha]
  · simp [enabled, smpInReady, ha]
  · simp [enabled, synLoadEnabled, ha]

/-- Settles O52: the three things an operation can do to the session (`blockAfter_session_cases`), and the
ports that wait outside it. -/
theorem sessionRule : Obligations.SessionRule := by
  intro i s t hexec
  have hports : s.blk.active = false → ∀ (v : Byte) (x : Sample) (last : Bool),
      i = .symIn v ∨ i = .smpOut ∨ i = .smpIn x last ∨ i = .synLoad → t = s := by
    intro ha v x last hi
    rw [exec_waits (not_enabled_of_inactive s.depths ha hi)] at hexec
    cases hexec
    rfl
  have hblk := exec_blk hexec
  obtain ⟨hi, ha, hv⟩ | ⟨hi, ha', hcfg⟩ | ⟨hsame, hcfg⟩ := blockAfter_session_cases s.depths i s.blk
  · exact ⟨fun _ _ => ⟨hi, hv⟩, by simp [ha], by simp [ha], hports⟩
  · rw [← hblk] at ha' hcfg
    exact ⟨by simp [ha'], fun _ _ => hi, fun _ => hcfg, hports⟩
  · rw [← hblk] at hsame hcfg
    exact ⟨fun ha ha' => by simp [hsame, ha] at ha', fun ha ha' => by simp [hsame, ha] at ha', hcfg,
      hports⟩

end Sys2Proof.Machine

/-! ## The register space: reads and repeated writes (20_memory.md R67) -/

namespace Sys2Proof.Machine

open Sys2Proof

/-! ### Reads -/

/-- The operation only answers: in every state its response, which is no write's, does not depend on what was
answered before, and nothing but the responses changes. -/
def OnlyAnswers (i : Instr) : Prop :=
  ∀ s : State, ∃ r : BusResponse, r ≠ .written ∧
    ∀ answered : List BusResponse,
      exec i { s with responses := answered } = .next { s with responses := answered ++ [r] }

/-- A legal read answers a word of the block (R66). -/
theorem OnlyAnswers.of_read {i : Instr} (word : Block → Word)
    (h : ∀ s, exec i s = readReply (word s.blk) s) : OnlyAnswers i :=
  fun s => ⟨.read (word s.blk), nofun, fun _ => h _⟩

/-- A malformed transaction answers a bus error (R62). -/
theorem OnlyAnswers.of_busError {i : Instr} (h : ∀ s, exec i s = errorReply s) : OnlyAnswers i :=
  fun _ => ⟨.busError, nofun, fun _ => h _⟩

/-- The read of each named register, in R83's order of word indices, and of a reserved offset (R101 to R123). -/
theorem decodeRegister_read_onlyAnswers (word : BitVec 7) (wdata : Word) :
    OnlyAnswers (decodeRegister false word wdata) := by
  unfold decodeRegister
  split
  · exact .of_read (fun _ => Config.idWord) fun _ => rfl
  · exact .of_read (fun _ => Config.versionWord) fun _ => rfl
  · exact .of_read (fun _ => BitVec.ofNat 32 Config.fsHz) fun _ => rfl
  · exact .of_read (fun _ => 0#32) fun _ => rfl
  · exact .of_read (fun b => b.bps.zeroExtend 32) fun _ => rfl
  · exact .of_read (fun b => b.sps.zeroExtend 32) fun _ => rfl
  · exact .of_read (fun b => b.srcRate) fun _ => rfl
  · exact .of_read statusWord fun _ => rfl
  · exact .of_read (fun b => b.events.zeroExtend 32) fun _ => rfl
  · exact .of_read (fun b => b.irqEn.zeroExtend 32) fun _ => rfl
  · exact .of_read errInfoWord fun _ => rfl
  · exact .of_read (fun b => b.symcnt) fun _ => rfl
  · exact .of_read (fun b => b.wincnt) fun _ => rfl
  · exact .of_read (fun b => b.dropcnt) fun _ => rfl
  · exact .of_read (fun b => b.detFill.zeroExtend 32) fun _ => rfl
  · exact .of_read (fun _ => 0#32) fun _ => rfl

/-- R83 step 2 in a read: a tone table entry (R124) or a register. -/
theorem decodeAligned_read_onlyAnswers (word : BitVec 7) (wdata : Word) :
    OnlyAnswers (decodeAligned false word wdata) := by
  unfold decodeAligned
  split
  · exact .of_read (fun b => toneAt b (word.extractLsb' 0 6).toNat) fun _ => rfl
  · exact decodeRegister_read_onlyAnswers word wdata

/-- R83 step 1 in a read: a malformed size or alignment (R100), or an aligned word access. -/
theorem decodeFields_read_onlyAnswers (sz : BitVec 2) (addr : BitVec 9) (wdata : Word) :
    OnlyAnswers (decodeFields false sz addr wdata) := by
  unfold decodeFields
  split
  · exact .of_busError fun _ => rfl
  · exact .of_busError fun _ => rfl
  · exact .of_busError fun _ => rfl
  · split
    · exact .of_busError fun _ => rfl
    · exact .of_busError fun _ => rfl
    · exact .of_busError fun _ => rfl
    · exact decodeAligned_read_onlyAnswers _ wdata

/-- Settles O17: every read vector only answers, so the second read meets the same block and answers the same. -/
theorem readsHaveNoSideEffect : Obligations.ReadsHaveNoSideEffect := by
  intro tv s hread
  have honly : OnlyAnswers (decode (.bus tv)) := by
    rw [← mkTv_fields tv, hread, decode_mkTv]
    exact decodeFields_read_onlyAnswers tv.sz tv.addr tv.wdata
  obtain ⟨r, hr, hexec⟩ := honly s
  exact ⟨r, hr, hexec s.responses, hexec (s.responses ++ [r])⟩

/-! ### Repeated writes -/

/-- Taking the same error twice is taking it once: events are sticky and ERRINFO is overwritten (R231). -/
theorem raise_raise (e : Event) (c : Cause) (info : BitVec 8) (b : Block) :
    raise e c info (raise e c info b) = raise e c info b := by
  simp [raise, BitVec.or_assoc]

/-- Clearing the same events twice is clearing them once (R116). -/
theorem clearEvents_clearEvents (mask : BitVec 7) (b : Block) :
    clearEvents mask (clearEvents mask b) = clearEvents mask b := by
  simp [clearEvents, BitVec.and_assoc]

theorem setTone_setTone (t : Lanes Word) (k : BitVec 6) (w : Word) :
    setTone (setTone t k w) k w = setTone t k w := by
  simp [setTone]

/-- A repeated write to a locked register is refused twice in a session and stored twice outside one (R126). -/
theorem writeRwl_writeRwl (addr : BitVec 9) {store : Block → Block} {b : Block}
    (hactive : (store b).active = b.active) (hstore : store (store b) = store b) :
    writeRwl addr store (writeRwl addr store b) = writeRwl addr store b := by
  obtain ⟨ha, hw⟩ | ⟨ha, hw⟩ := writeRwl_cases addr store b <;> rw [hw]
  · rw [writeRwl, lockedWrite_active, if_pos ha]
    exact raise_raise _ _ _ b
  · simp [writeRwl, hactive, ha, hstore]

/-- Settles O23, register by register on the block alone (`exec_blk`). -/
theorem repeatedWritesAreIdempotent : Obligations.RepeatedWritesAreIdempotent := by
  intro s t u x k i hi hfirst hsecond
  rw [exec_blk hsecond, exec_blk hfirst]
  simp only [List.mem_cons, List.not_mem_nil, or_false] at hi
  obtain rfl | rfl | rfl | rfl | rfl | rfl := hi
  · exact writeRwl_writeRwl _ rfl rfl
  · exact writeRwl_writeRwl _ rfl rfl
  · exact writeRwl_writeRwl _ rfl rfl
  · exact writeRwl_writeRwl _ rfl (by simp [setTone_setTone])
  · exact clearEvents_clearEvents _ _
  · rfl

end Sys2Proof.Machine

/-! ## Decoding and encoding (30_encoding.md) -/

namespace Sys2Proof.Machine

open Sys2Proof

/-! ### Command words (R84, R85, R130) -/

/-- The command word by its value: OP and MBZ together leave only 0 to 3 legal. -/
theorem decodeCommand_eq (w : Word) : decodeCommand w =
    if w = 0#32 then .nop else if w = 1#32 then .start else if w = 2#32 then .stop
    else if w = 3#32 then .flush else .cmdIllegal w := by
  by_cases h : 3 < w.toNat
  · have hne (k : Word) (hk : k.toNat ≤ 3) : w ≠ k := by rintro rfl; omega
    rw [decodeCommand_illegal w h, if_neg (hne _ (by decide)), if_neg (hne _ (by decide)),
      if_neg (hne _ (by decide)), if_neg (hne _ (by decide))]
  · have hw : w = 0#32 ∨ w = 1#32 ∨ w = 2#32 ∨ w = 3#32 := by bv_omega
    obtain rfl | rfl | rfl | rfl := hw <;> rfl

/-- Settles O24: offset 0x00C is the word index of CMD, whose writes are decoded by `decodeCommand`. -/
theorem commandWordDecoding : Obligations.CommandWordDecoding := by
  intro w
  rw [decode_busWord_aligned _ _ _ (by decide), ← decodeCommand_eq]
  rfl

/-- Settles O1: eleven closed words. -/
theorem specWordsDecode : Obligations.SpecWordsDecode := by
  unfold Obligations.SpecWordsDecode
  decide

/-! ### The branches of R83 -/

theorem bitVec2_cases (x : BitVec 2) : x = 0#2 ∨ x = 1#2 ∨ x = 2#2 ∨ x = 3#2 := by
  revert x; decide

/-- R83 on the fields: an aligned word access, or a malformed size, or a malformed alignment. -/
theorem decodeFields_cases (we : Bool) (sz : BitVec 2) (addr : BitVec 9) (wdata : Word) :
    (sz = 2#2 ∧ addr.extractLsb' 0 2 = 0#2 ∧
      decodeFields we sz addr wdata = decodeAligned we (addr.extractLsb' 2 7) wdata) ∨
    (sz = 0#2 ∧ decodeFields we sz addr wdata = .busErrorSz1 we addr wdata) ∨
    (sz = 1#2 ∧ decodeFields we sz addr wdata = .busErrorSz2 we addr wdata) ∨
    (sz = 3#2 ∧ decodeFields we sz addr wdata = .busErrorSzRsv we addr wdata) ∨
    (sz = 2#2 ∧ addr.extractLsb' 0 2 = 1#2 ∧
      decodeFields we sz addr wdata = .busErrorMisalign1 we (addr.extractLsb' 2 7) wdata) ∨
    (sz = 2#2 ∧ addr.extractLsb' 0 2 = 2#2 ∧
      decodeFields we sz addr wdata = .busErrorMisalign2 we (addr.extractLsb' 2 7) wdata) ∨
    (sz = 2#2 ∧ addr.extractLsb' 0 2 = 3#2 ∧
      decodeFields we sz addr wdata = .busErrorMisalign3 we (addr.extractLsb' 2 7) wdata) := by
  obtain rfl | rfl | rfl | rfl := bitVec2_cases sz
  · simp [decodeFields]
  · simp [decodeFields]
  · obtain hlow | hlow | hlow | hlow := bitVec2_cases (addr.extractLsb' 0 2) <;> simp [decodeFields, hlow]
  · simp [decodeFields]

/-! ### Every line decodes to a well-formed operation (R83, R91) -/

theorem wellFormed_ite {we : Bool} {i j : Instr} (hi : WellFormed i) (hj : WellFormed j) :
    WellFormed (if we then i else j) := by
  cases we
  · exact hj
  · exact hi

theorem wellFormed_decodeCommand (w : Word) : WellFormed (decodeCommand w) := by
  rw [decodeCommand_eq]
  split_ifs
  case neg => exact decide_eq_true (by bv_omega)
  all_goals rfl

/-- Every word index that reaches the reserved rows lies in 15..63: below 15 it names a register, and with
ADDR[8] = 1 a tone. -/
theorem wellFormed_decodeRegister (we : Bool) {word : BitVec 7} (wdata : Word) (hlow : word.toNat < 64) :
    WellFormed (decodeRegister we word wdata) := by
  unfold decodeRegister
  split
  case h_4 => exact wellFormed_ite (wellFormed_decodeCommand wdata) rfl
  case h_16 =>
    have hreserved : 15 ≤ word.toNat ∧ word.toNat < 64 := by
      simp only [imp_false] at *
      omega
    exact wellFormed_ite (decide_eq_true hreserved) (decide_eq_true hreserved)
  all_goals exact wellFormed_ite rfl rfl

theorem wellFormed_decodeAligned (we : Bool) (word : BitVec 7) (wdata : Word) :
    WellFormed (decodeAligned we word wdata) := by
  unfold decodeAligned
  split
  case isTrue => exact wellFormed_ite rfl rfl
  case isFalse htone =>
    have hlow : word.toNat < 64 := by revert htone; revert word; decide
    exact wellFormed_decodeRegister we wdata hlow

theorem wellFormed_decodeFields (we : Bool) (sz : BitVec 2) (addr : BitVec 9) (wdata : Word) :
    WellFormed (decodeFields we sz addr wdata) := by
  obtain ⟨-, -, h⟩ | ⟨-, h⟩ | ⟨-, h⟩ | ⟨-, h⟩ | ⟨-, -, h⟩ | ⟨-, -, h⟩ | ⟨-, -, h⟩ :=
    decodeFields_cases we sz addr wdata <;> rw [h]
  · exact wellFormed_decodeAligned we _ wdata
  all_goals rfl

/-- Settles O4: a bus line by R83's branches; on the ports every operand is legal. -/
theorem decodedOperationsAreWellFormed : Obligations.DecodedOperationsAreWellFormed := by
  intro o
  cases o with
  | bus tv => exact wellFormed_decodeFields tv.we tv.sz tv.addr tv.wdata
  | symIn | smpOut | smpIn | symOut | internal => rfl

/-! ### Encoding gives the vector of a write or of a malformed transaction back (R81) -/

/-- A byte offset is put together from its word index and its low bits. -/
theorem offsetOf_fields (addr : BitVec 9) :
    offsetOf (addr.extractLsb' 2 7) (addr.extractLsb' 0 2) = addr := by
  revert addr; decide

/-- An offset with ADDR[8] = 1 is that of a tone (R41). -/
theorem toneOffset_of_isTone {word : BitVec 7} (h : word.getLsbD 6 = true) :
    toneOffset (word.extractLsb' 0 6) = offsetOf word 0#2 := by
  revert word; decide

theorem encode_decodeCommand (w : Word) : encode (decodeCommand w) = busWord true 0x00C#9 w := by
  rw [decodeCommand_eq]
  split_ifs with h0 h1 h2 h3
  · rw [h0]; rfl
  · rw [h1]; rfl
  · rw [h2]; rfl
  · rw [h3]; rfl
  · rfl

theorem encode_decodeRegister_write (word : BitVec 7) (wdata : Word) :
    encode (decodeRegister true word wdata) = busWord true (offsetOf word 0#2) wdata := by
  have hword {k : Nat} (h : word.toNat = k) : word = BitVec.ofNat 7 k := by
    rw [← h, BitVec.ofNat_toNat, BitVec.setWidth_eq]
  unfold decodeRegister
  split
  case h_4 h => rw [hword h]; exact encode_decodeCommand wdata
  case h_16 => rfl
  all_goals
    rename_i h
    rw [hword h]
    rfl

theorem encode_decodeAligned_write (word : BitVec 7) (wdata : Word) :
    encode (decodeAligned true word wdata) = busWord true (offsetOf word 0#2) wdata := by
  unfold decodeAligned
  split
  case isTrue htone => rw [← toneOffset_of_isTone htone]; rfl
  case isFalse => exact encode_decodeRegister_write word wdata

/-- The size and the low address bits select the row that keeps them (R83). -/
theorem encode_decodeFields {we : Bool} {sz : BitVec 2} {addr : BitVec 9} (wdata : Word)
    (hkept : we = true ∨ sz ≠ 0b10#2 ∨ addr.extractLsb' 0 2 ≠ 0#2) :
    encode (decodeFields we sz addr wdata) = .bus (mkTv we sz addr wdata) := by
  have haddr := offsetOf_fields addr
  obtain ⟨hsz, hlow, h⟩ | ⟨hsz, h⟩ | ⟨hsz, h⟩ | ⟨hsz, h⟩ | ⟨hsz, hlow, h⟩ | ⟨hsz, hlow, h⟩ |
    ⟨hsz, hlow, h⟩ := decodeFields_cases we sz addr wdata <;> rw [h, hsz]
  · have hwe : we = true := by simpa [hsz, hlow] using hkept
    rw [hlow] at haddr
    rw [hwe, encode_decodeAligned_write, haddr]; rfl
  · rfl
  · rfl
  · rfl
  all_goals
    rw [hlow] at haddr
    rw [encode, haddr]
    rfl

/-- Settles O5: the encoding of the decoded fields is the vector put together from them. -/
theorem encodeInvertsDecodeOfWrites : Obligations.EncodeInvertsDecodeOfWrites := by
  intro tv hkept
  rw [decodeBus, encode_decodeFields tv.wdata hkept, mkTv_fields]

/-! ### Decoding gives every well-formed operation back -/

/-- Settles O2, row by row of the opcode table. -/
theorem decodeInvertsEncode : Obligations.DecodeInvertsEncode := by
  intro i
  cases i with
  | busErrorSz1 => exact Laws.RoundTrip.busErrorSz1 _ _ _
  | busErrorSz2 => exact Laws.RoundTrip.busErrorSz2 _ _ _
  | busErrorSzRsv => exact Laws.RoundTrip.busErrorSzRsv _ _ _
  | busErrorMisalign1 => exact Laws.RoundTrip.busErrorMisalign1 _ _ _
  | busErrorMisalign2 => exact Laws.RoundTrip.busErrorMisalign2 _ _ _
  | busErrorMisalign3 => exact Laws.RoundTrip.busErrorMisalign3 _ _ _
  | nop => exact Laws.RoundTrip.nop
  | start => exact Laws.RoundTrip.start
  | stop => exact Laws.RoundTrip.stop
  | flush => exact Laws.RoundTrip.flush
  | cmdIllegal => exact Laws.RoundTrip.cmdIllegal _
  | rdId => exact Laws.RoundTrip.rdId
  | wrRoId => exact Laws.RoundTrip.wrRoId _
  | rdVersion => exact Laws.RoundTrip.rdVersion
  | wrRoVersion => exact Laws.RoundTrip.wrRoVersion _
  | rdFsHz => exact Laws.RoundTrip.rdFsHz
  | wrRoFsHz => exact Laws.RoundTrip.wrRoFsHz _
  | rdCmd => exact Laws.RoundTrip.rdCmd
  | rdCfg => exact Laws.RoundTrip.rdCfg
  | wrCfg => exact Laws.RoundTrip.wrCfg _
  | rdSps => exact Laws.RoundTrip.rdSps
  | wrSps => exact Laws.RoundTrip.wrSps _
  | rdSrcRate => exact Laws.RoundTrip.rdSrcRate
  | wrSrcRate => exact Laws.RoundTrip.wrSrcRate _
  | rdStatus => exact Laws.RoundTrip.rdStatus
  | wrRoStatus => exact Laws.RoundTrip.wrRoStatus _
  | rdEvents => exact Laws.RoundTrip.rdEvents
  | wrEvents => exact Laws.RoundTrip.wrEvents _
  | rdIrqEn => exact Laws.RoundTrip.rdIrqEn
  | wrIrqEn => exact Laws.RoundTrip.wrIrqEn _
  | rdErrInfo => exact Laws.RoundTrip.rdErrInfo
  | wrRoErrInfo => exact Laws.RoundTrip.wrRoErrInfo _
  | rdSynSymCnt => exact Laws.RoundTrip.rdSynSymCnt
  | wrRoSynSymCnt => exact Laws.RoundTrip.wrRoSynSymCnt _
  | rdDetWinCnt => exact Laws.RoundTrip.rdDetWinCnt
  | wrRoDetWinCnt => exact Laws.RoundTrip.wrRoDetWinCnt _
  | rdDetDropCnt => exact Laws.RoundTrip.rdDetDropCnt
  | wrRoDetDropCnt => exact Laws.RoundTrip.wrRoDetDropCnt _
  | rdDetFill => exact Laws.RoundTrip.rdDetFill
  | wrRoDetFill => exact Laws.RoundTrip.wrRoDetFill _
  | rdTone => exact Laws.RoundTrip.rdTone _
  | wrTone => exact Laws.RoundTrip.wrTone _ _
  | rdReserved => exact Laws.RoundTrip.rdReserved _
  | wrReserved => exact Laws.RoundTrip.wrReserved _ _
  | symIn => exact Laws.RoundTrip.symIn _
  | smpOut => exact Laws.RoundTrip.smpOut
  | smpIn => exact Laws.RoundTrip.smpIn _ _
  | symOut => exact Laws.RoundTrip.symOut
  | synLoad => exact Laws.RoundTrip.synLoad

/-! ### One step: the next line, or SYN_LOAD (R10, R93, R282) -/

/-- SYN_LOAD as a step: taken where it is enabled, and otherwise nothing changes. -/
theorem exec_synLoad (s : State) : exec .synLoad s =
    if synLoadEnabled s.blk then .next { s with blk := synLoadBlock s.blk } else .next s := by
  rw [exec, execSynLoad]
  split <;> rfl

/-- Settles O6: SYN_LOAD does not go first, so the step is `stepLine`, and the line does not wait. -/
theorem stepPerformsTheNextLine : Obligations.StepPerformsTheNextLine := by
  intro s o rest hagenda henabled hfirst
  refine ⟨decodedOperationsAreWellFormed o, ?_⟩
  have hline : (s.synFirst && synLoadEnabled s.blk) = false := by
    obtain h | h := hfirst <;> simp [h]
  simp [step, stepLine, hline, hagenda, henabled]

/-- Settles O7: in each of the three cases the step is SYN_LOAD. -/
theorem stepWaitsAndTakesSynLoad : Obligations.StepWaitsAndTakesSynLoad := by
  intro s
  refine ⟨fun o rest hagenda hwaits => ?_, fun hagenda => ?_, fun hfirst henabled => ?_⟩
  · simp [step, stepLine, hagenda, hwaits, exec_synLoad]
  · simp [step, stepLine, hagenda, exec_synLoad]
  · simp [step, hfirst, henabled, exec_synLoad]

/-! ### The opcode table's first matching row (R95) -/

/-- A mask with no bit below `i` reads a number from bit `i` up. -/
theorem and_shiftLeft (x m i : Nat) : x &&& m <<< i = ((x >>> i) &&& m) <<< i := by
  apply Nat.eq_of_testBit_eq
  intro j
  simp only [Nat.testBit_and, Nat.testBit_shiftLeft, Nat.testBit_shiftRight]
  by_cases h : i ≤ j <;> simp [h]

/-- The mask of the rows BUS_ERROR_SZ* reads SZ. -/
theorem and_szMask (tv : Tv) : tv.toNat &&& 0x60000000000 = tv.sz.toNat <<< 41 := by
  rw [Tv.sz, BitVec.extractLsb'_toNat, ← Nat.and_two_pow_sub_one_eq_mod]
  exact and_shiftLeft tv.toNat 3 41

/-- The mask of the rows BUS_ERROR_MISALIGN* reads ADDR[1:0]. -/
theorem and_lowMask (tv : Tv) : tv.toNat &&& 0x00300000000 = (tv.addr.extractLsb' 0 2).toNat <<< 32 := by
  have hlow : tv.addr.extractLsb' 0 2 = tv.extractLsb' 32 2 := by
    rw [Tv.addr]
    apply BitVec.eq_of_getLsbD_eq
    intro i hi
    simp [hi, show i < 9 by omega]
  rw [hlow, BitVec.extractLsb'_toNat, ← Nat.and_two_pow_sub_one_eq_mod]
  exact and_shiftLeft tv.toNat 3 32

/-- The vector's bits above WDATA are WE, SZ and ADDR. -/
theorem mkTv_shiftRight (we : Bool) (sz : BitVec 2) (addr : BitVec 9) (wdata : Word) :
    (mkTv we sz addr wdata).toNat >>> 32 = (BitVec.ofBool we ++ sz ++ addr).toNat := by
  rw [mkTv, BitVec.toNat_append, Nat.shiftRight_or_distrib, Nat.shiftLeft_shiftRight,
    Nat.shiftRight_eq_zero _ _ wdata.isLt, Nat.or_zero]

/-- Only the rows NOP, START, STOP and FLUSH read WDATA; they are the rows of writes to CMD. -/
theorem busRows_mask : ∀ r ∈ busRows,
    r.mask = (r.mask >>> 32) <<< 32 ∨ r.mask = 2 ^ 44 - 1 ∧ r.pattern >>> 32 = 0xC0C := by
  decide

/-- Vectors that agree above WDATA and are no write to CMD have the same first row. -/
theorem firstBusRow_congr {tv tv' : Tv} (h : tv.toNat >>> 32 = tv'.toNat >>> 32)
    (hcmd : tv.toNat >>> 32 ≠ 0xC0C) : firstBusRow tv = firstBusRow tv' := by
  have hrow : ∀ r ∈ busRows, (tv.toNat &&& r.mask == r.pattern) = (tv'.toNat &&& r.mask == r.pattern) := by
    intro r hr
    obtain hmask | ⟨hmask, hpattern⟩ := busRows_mask r hr
    · rw [hmask, and_shiftLeft, h, ← and_shiftLeft]
    · have hne (v : Tv) (hv : v.toNat >>> 32 ≠ 0xC0C) : v.toNat ≠ r.pattern :=
        fun hv' => hv (hv' ▸ hpattern)
      have hall (v : Tv) : v.toNat &&& 2 ^ 44 - 1 = v.toNat := Nat.and_two_pow_sub_one_of_lt_two_pow v.isLt
      rw [hmask, hall, hall, beq_eq_false_iff_ne.2 (hne tv hcmd), beq_eq_false_iff_ne.2 (hne tv' (h ▸ hcmd))]
  rw [firstBusRow, firstBusRow, List.find?_congr hrow]

theorem mkTv_command_toNat (w : Word) : (mkTv true 2#2 0x00C#9 w).toNat = 0xC0C00000000 + w.toNat := by
  rw [mkTv, BitVec.toNat_append, ← Nat.shiftLeft_add_eq_or_of_lt w.isLt]
  rfl

/-- The word written to CMD selects the row NOP, START, STOP or FLUSH, and CMD_ILLEGAL otherwise (R84). -/
theorem firstBusRow_command (w : Word) :
    firstBusRow (mkTv true 2#2 0x00C#9 w) = some (decodeCommand w).mnemonic := by
  rw [decodeCommand_eq]
  split_ifs with h0 h1 h2 h3
  · rw [h0]; decide +kernel
  · rw [h1]; decide +kernel
  · rw [h2]; decide +kernel
  · rw [h3]; decide +kernel
  · have hhead : (mkTv true 2#2 0x00C#9 w).toNat &&& 0xFFF00000000 = 0xC0C00000000 := by
      rw [show 0xFFF00000000 = 0xFFF <<< 32 from rfl, and_shiftLeft, mkTv_shiftRight]
      rfl
    have hwhole : (mkTv true 2#2 0x00C#9 w).toNat &&& 0xFFFFFFFFFFF = 0xC0C00000000 + w.toNat := by
      rw [mkTv_command_toNat]
      exact Nat.and_two_pow_sub_one_of_lt_two_pow (n := 44) (by omega)
    have hnop : w.toNat ≠ 0 := by bv_omega
    have hstart : 0xC0C00000000 + w.toNat ≠ 0xC0C00000001 := by bv_omega
    have hstop : 0xC0C00000000 + w.toNat ≠ 0xC0C00000002 := by bv_omega
    have hflush : 0xC0C00000000 + w.toNat ≠ 0xC0C00000003 := by bv_omega
    simp [firstBusRow, busRows, busRowsCommands, and_szMask, and_lowMask, hhead, hwhole, hnop, hstart, hstop,
      hflush, Instr.mnemonic]

/-- No row but those of a write to CMD tells two WDATA apart. -/
theorem mnemonic_decodeAligned_wdata {we : Bool} {word : BitVec 7} (wdata : Word)
    (hcmd : ¬ (we = true ∧ word = 3#7)) :
    (decodeAligned we word wdata).mnemonic = (decodeAligned we word 0#32).mnemonic := by
  have hword (hw : we = true) : word.toNat ≠ 3 := fun h => hcmd ⟨hw, BitVec.eq_of_toNat_eq h⟩
  unfold decodeAligned decodeRegister
  cases we
  · split
    · rfl
    · split <;> rfl
  · split
    · rfl
    · split
      case h_4 h => exact absurd h (hword rfl)
      all_goals rfl

/-- The finite part: WE and the word index of an aligned word access select the decoder's row. -/
theorem firstBusRow_aligned_zero : ∀ (we : Bool) (word : BitVec 7), ¬ (we = true ∧ word = 3#7) →
    firstBusRow (mkTv we 2#2 (offsetOf word 0#2) 0#32) = some (decodeAligned we word 0#32).mnemonic := by
  decide +kernel

/-- 0xC0C is WE, SZ and ADDR of a write to CMD only. -/
theorem head_ne_of_not_command : ∀ (we : Bool) (word : BitVec 7), ¬ (we = true ∧ word = 3#7) →
    (BitVec.ofBool we ++ 2#2 ++ offsetOf word 0#2).toNat ≠ 0xC0C := by
  decide

/-- The row of an aligned word access: by WDATA in a write to CMD, and by WE and the word index elsewhere. -/
theorem firstBusRow_aligned (we : Bool) (word : BitVec 7) (wdata : Word) :
    firstBusRow (mkTv we 2#2 (offsetOf word 0#2) wdata) = some (decodeAligned we word wdata).mnemonic := by
  by_cases hcmd : we = true ∧ word = 3#7
  · obtain ⟨rfl, rfl⟩ := hcmd
    exact firstBusRow_command wdata
  · have hhead := mkTv_shiftRight we 2#2 (offsetOf word 0#2)
    rw [firstBusRow_congr ((hhead wdata).trans (hhead 0#32).symm)
      (by rw [hhead]; exact head_ne_of_not_command we word hcmd), firstBusRow_aligned_zero we word hcmd,
      mnemonic_decodeAligned_wdata wdata hcmd]

/-- Settles O3: the six rows of malformed transactions come first and read SZ and ADDR[1:0]; an aligned word
access matches none of them. -/
theorem decodePicksFirstTableRow : Obligations.DecodePicksFirstTableRow := by
  intro tv
  rw [decodeBus]
  obtain ⟨hsz, hlow, h⟩ | ⟨hsz, h⟩ | ⟨hsz, h⟩ | ⟨hsz, h⟩ | ⟨hsz, hlow, h⟩ | ⟨hsz, hlow, h⟩ |
    ⟨hsz, hlow, h⟩ := decodeFields_cases tv.we tv.sz tv.addr tv.wdata <;> rw [h]
  · rw [← firstBusRow_aligned, ← hlow, offsetOf_fields, ← hsz, mkTv_fields]
  all_goals simp [firstBusRow, busRows, busRowsCommands, and_szMask, and_lowMask, *, Instr.mnemonic]

end Sys2Proof.Machine

/-! ## Bus access, register by register (40_bus_access.md) -/

namespace Sys2Proof.Machine

open Sys2Proof

/-! ### Malformed transactions (R100, R62) -/

/-- A size or an alignment that R83 step 1 refuses decodes to an operation whose whole step is the bus error. -/
theorem exec_decodeFields_malformed (we : Bool) {sz : BitVec 2} {addr : BitVec 9} (wdata : Word)
    (hbad : sz ≠ 2#2 ∨ addr.extractLsb' 0 2 ≠ 0#2) (s : State) :
    exec (decodeFields we sz addr wdata) s = errorReply s := by
  obtain ⟨hsz, hlow, -⟩ | ⟨-, h⟩ | ⟨-, h⟩ | ⟨-, h⟩ | ⟨-, -, h⟩ | ⟨-, -, h⟩ | ⟨-, -, h⟩ :=
    decodeFields_cases we sz addr wdata
  · exact absurd hbad (by simp [hsz, hlow])
  all_goals rw [h]; rfl

/-- Settles O12: `errorReply` is the response busError and nothing else. -/
theorem busErrorsChangeNoState : Obligations.BusErrorsChangeNoState := by
  refine ⟨fun tv s hbad => ?_, fun _ _ _ _ _ => ⟨rfl, rfl, rfl, rfl, rfl, rfl⟩⟩
  exact exec_decodeFields_malformed tv.we tv.wdata hbad s

/-! ### Which operation an aligned word access is (R83) -/

/-- An aligned word access at the offset of a word index. -/
theorem decode_offsetOf (we : Bool) (word : BitVec 7) (wdata : Word) :
    decode (busWord we (offsetOf word 0#2) wdata) = decodeAligned we word wdata := by
  rw [decode_busWord_aligned _ _ _ (offsetOf_low word 0#2), offsetOf_word]

/-- R41: TONE[i] stands at 0x100 + 4*i. -/
theorem toneOffset_eq (i : BitVec 6) : toneOffset i = BitVec.ofNat 9 (0x100 + 4 * i.toNat) := by
  revert i; decide

/-- The access at 0x100 + 4*i is that of TONE[i]. -/
theorem decode_tone (we : Bool) (i : BitVec 6) (wdata : Word) :
    decode (busWord we (BitVec.ofNat 9 (0x100 + 4 * i.toNat)) wdata) =
      if we then .wrTone i wdata else .rdTone i := by
  rw [← toneOffset_eq, decode_toneOffset]

/-- A word index in 15..63 has the two reserved operations (R83 step 4). -/
theorem decode_reserved {word : BitVec 7} (wdata : Word) (h : 15 ≤ word.toNat ∧ word.toNat ≤ 63) :
    decode (busWord false (offsetOf word 0#2) wdata) = .rdReserved word ∧
    decode (busWord true (offsetOf word 0#2) wdata) = .wrReserved word wdata := by
  have hrange : 15 ≤ word.toNat ∧ word.toNat < 64 := by omega
  simp [decode_offsetOf, decodeAligned_reserved _ _ _ hrange]

/-! ### Reads of registers that hold their value (R101 to R104, R107 to R124) -/

/-- The reply to a read, with a register of fewer bits zero-extended (R66). -/
theorem readReply_zeroExtend {w : Nat} (x : BitVec w) (s : State) :
    readReply (x.zeroExtend 32) s =
      .next { s with responses := s.responses ++ [.read (BitVec.ofNat 32 x.toNat)] } := by
  rw [BitVec.ofNat_toNat]; rfl

theorem toneAt_toNat (b : Block) (i : BitVec 6) : toneAt b i.toNat = b.tone[i.toNat]'i.isLt :=
  laneD_of_lt _ _ i.isLt

/-- ERRINFO has INFO above CODE and no bit in common (R36, R119). -/
theorem errInfoWord_eq (b : Block) :
    errInfoWord b = BitVec.ofNat 32 (256 * b.errInfo.toNat + b.errCode.toNat) := by
  have hcode : b.errCode.toNat < 2 ^ 8 := Nat.lt_trans b.errCode.isLt (by decide)
  have hsum : 256 * b.errInfo.toNat + b.errCode.toNat = b.errInfo.toNat <<< 8 ||| b.errCode.toNat := by
    rw [← Nat.shiftLeft_add_eq_or_of_lt hcode, Nat.shiftLeft_eq, Nat.mul_comm]
  have hinfo : b.errInfo.toNat % 4294967296 = b.errInfo.toNat := Nat.mod_eq_of_lt (by omega)
  apply BitVec.eq_of_toNat_eq
  simp [errInfoWord, hsum, hinfo]

/-- Settles O13. -/
theorem constantAndReservedOffsets : Obligations.ConstantAndReservedOffsets := by
  intro s x word
  exact ⟨decode_offsetOf false 0#7 x, rfl, decode_offsetOf false 1#7 x, rfl, decode_offsetOf false 2#7 x, rfl,
    decode_offsetOf false 3#7 x, rfl, decode_reserved x, rfl, rfl⟩

/-- Settles O14: each register by its word index, and its word zero-extended. -/
theorem configurationReads : Obligations.ConfigurationReads := by
  intro s x i
  have htone : exec (.rdTone i) s =
      .next { s with responses := s.responses ++ [.read (s.blk.tone[i.toNat]'i.isLt)] } := by
    rw [← toneAt_toNat]; rfl
  exact ⟨decode_offsetOf false 4#7 x, readReply_zeroExtend s.blk.bps s,
    decode_offsetOf false 5#7 x, readReply_zeroExtend s.blk.sps s,
    decode_offsetOf false 6#7 x, rfl,
    decode_offsetOf false 9#7 x, readReply_zeroExtend s.blk.irqEn s,
    decode_tone false i x, htone⟩

/-- Settles O16: each register by its word index; ERRINFO's word is `errInfoWord_eq`. -/
theorem eventAndCounterReads : Obligations.EventAndCounterReads := by
  intro s x
  have herrInfo : exec .rdErrInfo s = .next { s with responses := s.responses ++
      [.read (BitVec.ofNat 32 (256 * s.blk.errInfo.toNat + s.blk.errCode.toNat))] } := by
    rw [← errInfoWord_eq]; rfl
  exact ⟨decode_offsetOf false 8#7 x, readReply_zeroExtend s.blk.events s,
    decode_offsetOf false 10#7 x, herrInfo,
    decode_offsetOf false 11#7 x, rfl, decode_offsetOf false 12#7 x, rfl, decode_offsetOf false 13#7 x, rfl,
    decode_offsetOf false 14#7 x, readReply_zeroExtend s.blk.detFill s⟩

/-! ### STATUS, bit by bit (R33, R114) -/

/-- A flag placed at bit `i` is that bit and no other. -/
theorem getLsbD_flagAt (i : Nat) (f : Bool) {k : Nat} (hk : k < 32) :
    (flagAt i f).getLsbD k = (decide (k = i) && f) := by
  have hbit : (!decide (k < i) && decide (k - i = 0)) = decide (k = i) := by
    rw [Bool.eq_iff_iff]
    simp only [Bool.and_eq_true, Bool.not_eq_true', decide_eq_true_eq, decide_eq_false_iff_not]
    omega
  simp [flagAt, hk, ← hbit, Bool.and_assoc]

/-- A FIFO level placed at bit `i` is the five bits from there up. -/
theorem getLsbD_levelAt (i n : Nat) {k : Nat} (hk : k < 32) :
    ((BitVec.ofNat 5 n).zeroExtend 32 <<< i).getLsbD k =
      (decide (i ≤ k ∧ k < i + 5) && n.testBit (k - i)) := by
  have hbits : (!decide (k < i) && decide (k - i < 5)) = decide (i ≤ k ∧ k < i + 5) := by
    rw [Bool.eq_iff_iff]
    simp only [Bool.and_eq_true, Bool.not_eq_true', decide_eq_true_eq, decide_eq_false_iff_not]
    omega
  simp [hk, ← hbits, Bool.and_assoc, BitVec.getLsbD_ofNat]

/-- Every bit of STATUS: the six flags, and the two levels at [12:8] and [20:16]. -/
theorem getLsbD_statusWord (b : Block) {k : Nat} (hk : k < 32) :
    (statusWord b).getLsbD k =
      ((decide (k = 0) && b.active) || (decide (k = 1) && b.synBusy) || (decide (k = 2) && b.synHalt)
        || (decide (k = 3) && b.detFill != 0#16) || (decide (k = 4) && b.srcRate != 22050#32)
        || (decide (k = 5) && irq b)
        || (decide (8 ≤ k ∧ k < 13) && b.si.length.testBit (k - 8))
        || (decide (16 ≤ k ∧ k < 21) && b.so.length.testBit (k - 16))) := by
  simp only [statusWord, BitVec.getLsbD_or, getLsbD_flagAt _ _ hk, getLsbD_levelAt _ _ hk]

/-- Above the six flags only the levels are left. -/
theorem getLsbD_statusWord_of_ge (b : Block) {k : Nat} (hflags : 6 ≤ k) (hk : k < 32) :
    (statusWord b).getLsbD k =
      ((decide (8 ≤ k ∧ k < 13) && b.si.length.testBit (k - 8))
        || (decide (16 ≤ k ∧ k < 21) && b.so.length.testBit (k - 16))) := by
  have hne : k ≠ 0 ∧ k ≠ 1 ∧ k ≠ 2 ∧ k ≠ 3 ∧ k ≠ 4 ∧ k ≠ 5 := by omega
  rw [getLsbD_statusWord b hk]
  simp [hne]

theorem statusWord_synLevel (b : Block) :
    (statusWord b).extractLsb' 8 5 = BitVec.ofNat 5 b.si.length := by
  apply BitVec.eq_of_getLsbD_eq
  intro i hi
  have hsi : 8 ≤ 8 + i ∧ 8 + i < 13 := by omega
  have hso : ¬ (16 ≤ 8 + i ∧ 8 + i < 21) := by omega
  rw [BitVec.getLsbD_extractLsb', getLsbD_statusWord_of_ge b (by omega) (by omega), BitVec.getLsbD_ofNat]
  simp [hi, hsi, hso]

theorem statusWord_detLevel (b : Block) :
    (statusWord b).extractLsb' 16 5 = BitVec.ofNat 5 b.so.length := by
  apply BitVec.eq_of_getLsbD_eq
  intro i hi
  have hsi : ¬ (8 ≤ 16 + i ∧ 16 + i < 13) := by omega
  have hso : 16 ≤ 16 + i ∧ 16 + i < 21 := by omega
  rw [BitVec.getLsbD_extractLsb', getLsbD_statusWord_of_ge b (by omega) (by omega), BitVec.getLsbD_ofNat]
  simp [hi, hsi, hso]

/-- Bits [7:6], [15:13] and [31:21] are in no field (R33). -/
theorem statusWord_unused (b : Block) {start len : Nat} (h : ∀ i < len, 6 ≤ start + i ∧ start + i < 8 ∨
      13 ≤ start + i ∧ start + i < 16 ∨ 21 ≤ start + i ∧ start + i < 32) :
    (statusWord b).extractLsb' start len = 0#len := by
  apply BitVec.eq_of_getLsbD_eq
  intro i hi
  have hi' := h i hi
  have hsi : ¬ (8 ≤ start + i ∧ start + i < 13) := by omega
  have hso : ¬ (16 ≤ start + i ∧ start + i < 21) := by omega
  rw [BitVec.getLsbD_extractLsb', getLsbD_statusWord_of_ge b (by omega) (by omega)]
  simp [hsi, hso]

/-- Settles O15: the flags by `getLsbD_statusWord`, then the fields from bit 6 up. -/
theorem statusReadBitByBit : Obligations.StatusReadBitByBit := by
  intro s x
  have hflag {k : Nat} (hk : k < 6) := getLsbD_statusWord s.blk (k := k) (by omega)
  refine ⟨decode_offsetOf false 7#7 x, statusWord s.blk, rfl, ?_, ?_, ?_, ?_, ?_, ?_,
    statusWord_unused s.blk (by omega), statusWord_synLevel s.blk, statusWord_unused s.blk (by omega),
    statusWord_detLevel s.blk, statusWord_unused s.blk (by omega)⟩
  all_goals rw [hflag (by decide)]; simp

/-! ### Writes that the block ignores (R105, R137) -/

/-- Settles O18: the nine read-only registers by their word index, and NOP by its command word. -/
theorem ignoredWrites : Obligations.IgnoredWrites := by
  intro s x p hp
  have hnop : decode (busWord true 0x00C#9 0#32) = .nop := by
    rw [commandWordDecoding 0#32]; rfl
  simp only [List.mem_cons, List.not_mem_nil, or_false] at hp
  obtain rfl | rfl | rfl | rfl | rfl | rfl | rfl | rfl | rfl | rfl := hp
  · exact ⟨decode_offsetOf true 0#7 x, rfl⟩
  · exact ⟨decode_offsetOf true 1#7 x, rfl⟩
  · exact ⟨decode_offsetOf true 2#7 x, rfl⟩
  · exact ⟨decode_offsetOf true 7#7 x, rfl⟩
  · exact ⟨decode_offsetOf true 10#7 x, rfl⟩
  · exact ⟨decode_offsetOf true 11#7 x, rfl⟩
  · exact ⟨decode_offsetOf true 12#7 x, rfl⟩
  · exact ⟨decode_offsetOf true 13#7 x, rfl⟩
  · exact ⟨decode_offsetOf true 14#7 x, rfl⟩
  · exact ⟨hnop, rfl⟩

/-! ### EVENTS, IRQ_EN and the interrupt line (R116, R118, R236) -/

/-- The mask of an event register is WDATA[6:0] (R90). -/
theorem getLsbD_eventField (x : Word) {k : Nat} (hk : k < 7) : (eventField x).getLsbD k = x.getLsbD k := by
  simp [eventField, hk]

theorem irq_eq_true_iff (b : Block) :
    irq b = true ↔ ∃ k < 7, b.events.getLsbD k = true ∧ b.irqEn.getLsbD k = true := by
  rw [irq, bne_iff_ne]
  constructor
  · intro hne
    by_contra hnone
    refine hne (BitVec.eq_of_getLsbD_eq fun k hk => ?_)
    have hbit : ¬ (b.events.getLsbD k = true ∧ b.irqEn.getLsbD k = true) := fun h => hnone ⟨k, hk, h⟩
    simpa using hbit
  · rintro ⟨k, hk, hevent, henabled⟩ hzero
    have hbit := congrArg (·.getLsbD k) hzero
    simp [hevent, henabled] at hbit

/-- Settles O19: the write is `clearEvents` of WDATA[6:0]. -/
theorem eventsWriteOneToClear : Obligations.EventsWriteOneToClear := by
  intro s x
  refine ⟨decode_offsetOf true 8#7 x, _, rfl, fun k hk => ?_, rfl⟩
  rw [clearEvents_events, BitVec.getLsbD_and, BitVec.getLsbD_not, getLsbD_eventField x hk]
  simp [hk]

/-- Settles O20: the line is a function of the two masks, and the write replaces one of them. -/
theorem interruptMaskAndLine : Obligations.InterruptMaskAndLine := by
  refine ⟨irq_eq_true_iff, fun s x => ⟨decode_offsetOf true 9#7 x, _, rfl,
    fun k hk => getLsbD_eventField x hk, ?_, rfl⟩⟩
  rw [irq_eq_true_iff]
  refine exists_congr fun k => and_congr_right fun hk => ?_
  rw [getLsbD_eventField x hk]

/-! ### Registers that a session locks (R109, R111, R113, R125, R126) -/

/-- Outside a session a write to a locked register is its store. -/
theorem writeReply_writeRwl_idle (addr : BitVec 9) (store : Block → Block) {s : State}
    (h : s.blk.active = false) :
    writeReply (writeRwl addr store) s =
      .next { s with blk := store s.blk, responses := s.responses ++ [.written] } := by
  simp [writeReply, writeRwl, h]

/-- In a session it only raises ERR_ACCESS, with cause 8 and the word index (R126). -/
theorem writeReply_writeRwl_locked (addr : BitVec 9) (store : Block → Block) {s : State}
    (h : s.blk.active = true) :
    writeReply (writeRwl addr store) s = .next { s with
      blk := { s.blk with
        events := s.blk.events ||| 0x20#7, errCode := 8#4, errInfo := wordIndex addr }
      responses := s.responses ++ [.written] } := by
  rw [writeReply, writeRwl, if_pos h]
  rfl

theorem bpsField_eq (x : Word) : bpsField x = BitVec.ofNat 3 (x.toNat % 8) := by
  apply BitVec.eq_of_toNat_eq
  simp [bpsField]

theorem spsField_eq (x : Word) : spsField x = BitVec.ofNat 16 (x.toNat % 65536) := by
  apply BitVec.eq_of_toNat_eq
  simp [spsField]

/-- Settles O21: the stores of CFG and SPS take a low field of the word. -/
theorem configurationWrites : Obligations.ConfigurationWrites := by
  intro s x
  refine ⟨decode_offsetOf true 4#7 x, decode_offsetOf true 5#7 x, decode_offsetOf true 6#7 x,
    fun hidle => ⟨?_, ?_, writeReply_writeRwl_idle _ _ hidle⟩,
    fun hactive => ⟨writeReply_writeRwl_locked 0x010#9 _ hactive, writeReply_writeRwl_locked 0x014#9 _ hactive,
      writeReply_writeRwl_locked 0x018#9 _ hactive⟩⟩
  · rw [← bpsField_eq]
    exact writeReply_writeRwl_idle _ _ hidle
  · rw [← spsField_eq]
    exact writeReply_writeRwl_idle _ _ hidle

/-- The table after a write: the entry written, and every other as it was. -/
theorem getElem_setTone (t : Lanes Word) (i : BitVec 6) (w : Word) (j : Fin 64) :
    (setTone t i w)[j] = if j.val = i.toNat then w else t[j] := by
  simp only [setTone, Fin.getElem_fin, Vector.getElem_set, eq_comm]

/-- Settles O22: the store is `setTone`, and the word index of TONE[i] is 64 + i. -/
theorem toneWrites : Obligations.ToneWrites := by
  intro s i x
  refine ⟨decode_tone true i x, fun hidle => ?_, fun hactive => ?_⟩
  · exact ⟨_, writeReply_writeRwl_idle _ _ hidle, getElem_setTone s.blk.tone i x, rfl⟩
  · rw [← wordIndex_toneOffset]
    exact writeReply_writeRwl_locked (toneOffset i) _ hactive

end Sys2Proof.Machine

/-! ## Commands (41_commands.md) -/

namespace Sys2Proof.Machine

open Sys2Proof

/-- The step of a legal write, where its effect on the block is known. -/
theorem writeReply_of_eq {effect : Block → Block} {s : State} {b : Block} (h : effect s.blk = b) :
    writeReply effect s = .next { s with blk := b, responses := s.responses ++ [.written] } := by
  rw [writeReply, h]

/-! ### START that is refused (R132, R133) -/

/-- Outside a session, a START in R233's table only raises ERR_CFG, with the cause and INFO of its row. -/
theorem exec_start_refused {s : State} {code : BitVec 4} {info : BitVec 8} {bit : Nat}
    (hidle : s.blk.active = false) (h : Raises s.blk .start code info bit) :
    exec .start s = .next { s with
      blk := { s.blk with events := s.blk.events ||| 0x10#7, errCode := code, errInfo := info }
      responses := s.responses ++ [.written] } := by
  obtain ⟨cause, hcheck, rfl, -⟩ := validateConfig_of_raises hidle h
  exact writeReply_of_eq (startBlock_of_validateConfig hidle hcheck)

/-- Settles O28: the session is the first thing START looks at. -/
theorem startWhileActive : Obligations.StartWhileActive := by
  refine ⟨commandWordDecoding 1#32, fun s hactive => ?_⟩
  have hstart : startBlock s.blk = raise .errAccess .cmdState 0x01#8 s.blk := if_pos hactive
  exact writeReply_of_eq hstart

/-! ### START that is accepted (R131) -/

/-- A new session with every field written out. -/
theorem startSession_eq (b : Block) : startSession b =
    { b with
      active := true, si := [], so := [], synBusy := false, synHalt := false, synSym := 0#6
      synN := 0#16, acc := Vector.replicate 64 0, detFill := 0#16
      symcnt := 0#32, wincnt := 0#32, dropcnt := 0#32
      events := if b.srcRate = 22050#32 then b.events else b.events ||| 0x40#7 } := by
  unfold startSession
  split <;> rfl

/-- A legal configuration passes every check, so START opens the session. -/
theorem exec_start_accepted {s : State} (hidle : s.blk.active = false) (hv : ConfigValid s.blk) :
    exec .start s = .next { s with blk := startSession s.blk, responses := s.responses ++ [.written] } := by
  have hstart : startBlock s.blk = startSession s.blk := by
    simp [startBlock, hidle, (validateConfig_eq_none s.blk).2 hv]
  exact writeReply_of_eq hstart

/-- Settles O26. -/
theorem startOpensSession : Obligations.StartOpensSession := by
  intro s hidle hv
  refine ⟨commandWordDecoding 1#32, ?_⟩
  rw [exec_start_accepted hidle hv, startSession_eq]

/-- Settles O27: the first failing check is a row of R233's table, and where none fails the configuration is
legal. -/
theorem startRefusals : Obligations.StartRefusals := by
  intro s hidle refused outOfRange repeats bpsLegal
  have inRange {k : Nat} (h : ¬ outOfRange k) : toneAt s.blk k ≠ 0#32 ∧ (toneAt s.blk k).toNat < 2 ^ 31 := by
    simpa only [outOfRange, not_or, not_le] using h
  have unrepeated {k : Nat} (h : ¬ repeats k) : ∀ j < k, toneAt s.blk j ≠ toneAt s.blk k :=
    fun j hj heq => h ⟨j, hj, heq⟩
  refine ⟨fun hbps => ?_, fun ⟨hlo, hhi⟩ hsps => ?_, fun ⟨hlo, hhi⟩ hsps k hk hbad hfirst => ?_,
    fun ⟨hlo, hhi⟩ hsps hrange k hk hrep hfirst => ?_, fun hbps hsps htones => ?_⟩
  · exact exec_start_refused hidle (.cfgBps hidle (by omega))
  · exact exec_start_refused hidle (.cfgSps hidle hlo hhi hsps)
  · exact exec_start_refused hidle
      (.cfgFtwRange k hidle hlo hhi hsps hk hbad fun j hj => inRange (hfirst j hj))
  · exact exec_start_refused hidle
      (.cfgFtwDup k hidle hlo hhi hsps (fun j hj => inRange (hrange j hj)) hk hrep
        fun j hj => unrepeated (hfirst j hj))
  · have hv : ConfigValid s.blk :=
      { bpsLegal := hbps
        spsLegal := by bv_omega
        ftwLegal := fun k hk => by have := inRange (htones k hk).1; bv_omega
        ftwDistinct := fun k hk => unrepeated (htones k hk).2 }
    exact ⟨_, exec_start_accepted hidle hv, startSession_active _, startSession_errCode _,
      startSession_errInfo _⟩

/-! ### STOP (R134) -/

/-- A discarded partial window with every field written out (R187). -/
theorem discardPartial_eq (b : Block) : discardPartial b =
    { b with
      dropcnt := b.dropcnt + BitVec.ofNat 32 b.detFill.toNat
      events := b.events ||| 0x04#7, acc := Vector.replicate 64 0, detFill := 0#16 } := by
  rw [BitVec.ofNat_toNat]
  rfl

/-- A closed session with every field written out. -/
theorem stopBlock_eq (b : Block) : stopBlock b =
    { b with
      active := false, si := [], synBusy := false, synHalt := false, synSym := 0#6, synN := 0#16
      dropcnt :=
        if b.detFill = 0#16 then b.dropcnt else b.dropcnt + BitVec.ofNat 32 b.detFill.toNat
      events := if b.detFill = 0#16 then b.events else b.events ||| 0x04#7
      acc := Vector.replicate 64 0, detFill := 0#16 } := by
  by_cases hfill : b.detFill = 0#16
  · simp only [stopBlock, if_pos hfill]
    rfl
  · simp only [stopBlock, if_neg hfill, discardPartial_eq]
    rfl

/-- Settles O29. -/
theorem stopClosesSession : Obligations.StopClosesSession :=
  fun s => ⟨commandWordDecoding 2#32, writeReply_of_eq (stopBlock_eq s.blk)⟩

/-- At a window boundary every accumulator of a state that meets the invariant is 0 (R183). -/
theorem Block.Inv.acc_eq_accZero {d : Config.Depths} {b : Block} (h : b.Inv d) (hfill : b.detFill = 0#16) :
    b.acc = accZero := by
  ext k hk
  have hlane : accAt b k = b.acc[k] := laneD_of_lt _ _ hk
  rw [← hlane, h.accAt_eq_zero hfill]
  simp [accZero]

/-- Outside a session everything that STOP clears is clear already. -/
theorem Block.Inv.stopBlock_eq_self {d : Config.Depths} {b : Block} (h : b.Inv d) (hidle : b.active = false) :
    Machine.stopBlock b = b := by
  obtain ⟨hsi, hbusy, hhalt, hfill⟩ := h.idle hidle
  obtain ⟨hsym, hn⟩ := h.toneIdle hbusy
  have hacc : b.acc = Vector.replicate 64 0 := h.acc_eq_accZero hfill
  rw [stopBlock_eq, if_pos hfill, if_pos hfill]
  cases b
  simp_all

/-- Settles O30. -/
theorem stopOutsideSessionIsIdle : Obligations.StopOutsideSessionIsIdle := by
  rintro s ⟨-, hinv⟩ hidle
  exact writeReply_of_eq (hinv.stopBlock_eq_self hidle)

/-! ### FLUSH and illegal command words (R135, R136) -/

/-- Settles O31. -/
theorem flushDiscardsPartialWindow : Obligations.FlushDiscardsPartialWindow := by
  intro s
  refine ⟨commandWordDecoding 3#32, fun hactive hfill => ?_, fun hnothing => ?_⟩
  · have hflush : flushBlock s.blk = discardPartial s.blk := if_pos ⟨hactive, hfill⟩
    exact writeReply_of_eq (hflush.trans (discardPartial_eq s.blk))
  · have hflush : flushBlock s.blk = s.blk :=
      if_neg fun ⟨hactive, hfill⟩ => hnothing.elim (by simp [hactive]) hfill
    exact writeReply_of_eq hflush

/-- Settles O25: MBZ not zero or OP above 3 is a word above 3. -/
theorem illegalCommandOnlyRaises : Obligations.IllegalCommandOnlyRaises := by
  intro s w
  refine ⟨fun hbad => ?_, ?_⟩
  · have hw : 3 < w.toNat := by omega
    rw [decode_busWord_aligned _ _ _ (by decide)]
    exact decodeCommand_illegal w hw
  · rw [← opField_eq]
    rfl

end Sys2Proof.Machine

/-! ## The waveform (42_synthesizer.md R150 to R154) -/

namespace Sys2Proof.Machine

open Sys2Proof

/-! ### Symmetries of SINE_ROM (R151) -/

/-- R151 (c): the second half is the negated first. -/
theorem sineRom_add_half {k : Nat} (hk : k < 2048) : sineRom (k + 2048) = -sineRom k := by
  rw [sineRom, sineRom, if_neg (by omega), if_pos hk, Nat.add_sub_cancel]

/-- The first half is symmetric about the peak. -/
theorem sineHalf_reflect {k : Nat} (hk : k ≤ 2048) : sineHalf (2048 - k) = sineHalf k := by
  obtain hlt | rfl | hgt := Nat.lt_trichotomy k 1024
  · rw [sineHalf, sineHalf, if_neg (by omega), if_pos (by omega), Nat.sub_sub_self hk]
  · rfl
  · rw [sineHalf, sineHalf, if_pos (by omega), if_neg (by omega)]

/-- R151 (d). -/
theorem sineRom_reflect {k : Nat} (hpos : 1 ≤ k) (hk : k ≤ 2047) : sineRom (2048 - k) = sineRom k := by
  rw [sineRom, sineRom, if_pos (by omega), if_pos (by omega), sineHalf_reflect (by omega)]

/-- R162: a tone starts at phase 0. -/
theorem wave_zero (ftw : Word) : wave ftw 0 = 0 := by
  have hphase : phase ftw 0 = 0 := by simp [phase]
  rw [wave, hphase]
  decide +kernel

/-- Settles O33. -/
theorem sineRomSymmetry : Obligations.SineRomSymmetry :=
  ⟨by decide +kernel, by decide +kernel, by decide +kernel, by decide +kernel,
    fun _ => sineRom_add_half, fun _ => sineRom_reflect, fun k _ => abs_le.1 (abs_sineRom_le k), wave_zero⟩

/-! ### The phase (R152) -/

/-- After `n` additions the accumulator holds the phase of sample `n`. -/
theorem toNat_iterate_add (ftw : Word) (n : Nat) :
    ((fun p : Word => p + ftw)^[n] 0#32).toNat = phase ftw n := by
  induction n with
  | zero => simp [phase]
  | succ n ih =>
    rw [Function.iterate_succ_apply', BitVec.toNat_add, ih, phase, phase, Nat.mod_add_mod, Nat.succ_mul]

/-- Settles O32. -/
theorem waveIsPhaseAccumulator : Obligations.WaveIsPhaseAccumulator := by
  intro ftw n
  rw [toNat_iterate_add, wave]

/-! ### A fixed-point walk round the circle, one ROM entry a step (R150)

The walk keeps 10^15 times the cosine and the sine of the current angle as integers. It is run beside the table
inside the kernel; what the rounding of each step and of the two constants can add up to is bounded once, over the
complex numbers. -/

/-- The angle between two entries of SINE_ROM. -/
noncomputable def romAngle : ℝ := 2 * Real.pi / 4096

/-- 10^15 times the point of the unit circle at `romAngle`, both coordinates rounded down. -/
def romStep : Int × Int := (999998823451701, 1533980186284)

/-- One step further round the circle of radius 10^15. -/
def romTurn (p : Int × Int) : Int × Int :=
  ((p.1 * romStep.1 - p.2 * romStep.2) / 10 ^ 15, (p.1 * romStep.2 + p.2 * romStep.1) / 10 ^ 15)

/-- What one step of the walk can lose, in units of 10^-15: 598 for the constants (`norm_romStep_sub_le`) and 2
for the rounding of the two coordinates (`norm_romTurn_sub_le`). -/
def romSlack : Nat := 600

/-- `v` rounds 32767 times every sine that the walk can mean by `y`, with the slack of 4096 steps. -/
def roundsEntry (y v : Int) : Bool :=
  decide ((32767 * y - 10 ^ 15 * v).natAbs * 2 + 2 * 32767 * (romSlack * 4096) < 10 ^ 15)

/-- The entries of SINE_ROM from `k` on, `fuel` of them, round the walk that stands at `p`. -/
def walkRounds : Nat → Nat → Int × Int → Bool
  | 0, _, _ => true
  | fuel + 1, k, p => roundsEntry p.2 (sineRom k) && walkRounds fuel (k + 1) (romTurn p)

/-- The table, run beside the walk. The sine nearest to a tie is 1.4 * 10^-4 off it and the slack is 0.8 * 10^-4. -/
theorem walkRounds_rom : walkRounds 4096 0 (10 ^ 15, 0) = true := by decide +kernel

/-- The point of the unit circle's plane where the walk stands at `p`. -/
noncomputable def walkPoint (p : Int × Int) : ℂ := ⟨p.1 / 10 ^ 15, p.2 / 10 ^ 15⟩

/-- The point of the unit circle at entry `k`. -/
noncomputable def romPoint (k : Nat) : ℂ := Complex.exp ((k * romAngle : ℝ) * Complex.I)

theorem romPoint_succ (k : Nat) : romPoint (k + 1) = romPoint k * romPoint 1 := by
  rw [romPoint, romPoint, romPoint, ← Complex.exp_add]
  push_cast
  ring_nf

theorem norm_romPoint (k : Nat) : ‖romPoint k‖ = 1 := Complex.norm_exp_ofReal_mul_I _

/-- The walk that stands at `p` is `k` steps from angle 0, up to the slack of those steps. -/
def WalkAt (k : Nat) (p : Int × Int) : Prop := ‖walkPoint p - romPoint k‖ ≤ k * (romSlack / 10 ^ 15)

theorem walkAt_start : WalkAt 0 (10 ^ 15, 0) := by
  have hstart : walkPoint (10 ^ 15, 0) = 1 := by
    apply Complex.ext <;> norm_num [walkPoint]
  rw [WalkAt, hstart]
  simp [romPoint]

theorem romAngle_bounds : 0.00153398078788564 < romAngle ∧ romAngle < 0.00153398078788565 := by
  have hlo := Real.pi_gt_d20
  have hhi := Real.pi_lt_d20
  unfold romAngle
  constructor <;> linarith

/-- The two constants of the walk, against the Taylor polynomials of cosine and sine. -/
theorem norm_romStep_sub_le : ‖walkPoint romStep - romPoint 1‖ ≤ 598 / 10 ^ 15 := by
  obtain ⟨hlo, hhi⟩ := romAngle_bounds
  have habs : |romAngle| = romAngle := abs_of_pos (by linarith)
  have hcos := Real.cos_bound (x := romAngle) (by rw [habs]; linarith)
  have hsin := Real.sin_bound (x := romAngle) (by rw [habs]; linarith)
  rw [habs, abs_le] at hcos hsin
  have h2 : romAngle ^ 2 < 0.00153398078788565 ^ 2 := by gcongr
  have h2' : 0.00153398078788564 ^ 2 < romAngle ^ 2 := by gcongr
  have h3 : romAngle ^ 3 < 0.00153398078788565 ^ 3 := by gcongr
  have h3' : 0.00153398078788564 ^ 3 < romAngle ^ 3 := by gcongr
  have h4 : romAngle ^ 4 < 0.00153398078788565 ^ 4 := by gcongr
  have h5 : romAngle ^ 5 < 0.00153398078788565 ^ 5 := by gcongr
  have hre : |999998823451701 / 10 ^ 15 - Real.cos romAngle| ≤ 560 / 10 ^ 15 := by
    rw [abs_le]
    constructor <;> linarith
  have him : |1533980186284 / 10 ^ 15 - Real.sin romAngle| ≤ 38 / 10 ^ 15 := by
    rw [abs_le]
    constructor <;> linarith
  refine (Complex.norm_le_abs_re_add_abs_im _).trans ?_
  simp only [walkPoint, romStep, romPoint, Complex.sub_re, Complex.sub_im, Complex.exp_ofReal_mul_I_re,
    Complex.exp_ofReal_mul_I_im, Nat.cast_one, one_mul]
  push_cast
  linarith

theorem norm_walkPoint_romStep : ‖walkPoint romStep‖ ≤ 1 := by
  rw [Complex.norm_def, Real.sqrt_le_one]
  norm_num [Complex.normSq_apply, walkPoint, romStep]

/-- Rounding a quotient down loses less than one unit. -/
theorem abs_floorDiv_sub_le (a : Int) :
    |((a / 10 ^ 15 : Int) : ℝ) / 10 ^ 15 - a / 10 ^ 15 / 10 ^ 15| ≤ 1 / 10 ^ 15 := by
  have hdiv := Int.mul_ediv_add_emod a (10 ^ 15)
  have hlo := Int.emod_nonneg a (b := 10 ^ 15) (by norm_num)
  have hhi := Int.emod_lt_of_pos a (b := 10 ^ 15) (by norm_num)
  have hlo' : (10 : ℝ) ^ 15 * (a / 10 ^ 15 : Int) ≤ a := by exact_mod_cast (by omega)
  have hhi' : (a : ℝ) ≤ 10 ^ 15 * (a / 10 ^ 15 : Int) + 10 ^ 15 := by exact_mod_cast (by omega)
  rw [abs_le]
  constructor <;> linarith

theorem norm_romTurn_sub_le (p : Int × Int) :
    ‖walkPoint (romTurn p) - walkPoint p * walkPoint romStep‖ ≤ 2 / 10 ^ 15 := by
  refine (Complex.norm_le_abs_re_add_abs_im _).trans ?_
  have hre := abs_floorDiv_sub_le (p.1 * romStep.1 - p.2 * romStep.2)
  have him := abs_floorDiv_sub_le (p.1 * romStep.2 + p.2 * romStep.1)
  simp only [walkPoint, romTurn, Complex.sub_re, Complex.sub_im, Complex.mul_re, Complex.mul_im]
  push_cast at hre him
  ring_nf at hre him ⊢
  linarith

theorem WalkAt.romTurn {k : Nat} {p : Int × Int} (h : WalkAt k p) : WalkAt (k + 1) (romTurn p) := by
  have hsplit : walkPoint (Machine.romTurn p) - romPoint (k + 1) =
      (walkPoint (Machine.romTurn p) - walkPoint p * walkPoint romStep) +
        ((walkPoint p - romPoint k) * walkPoint romStep +
          romPoint k * (walkPoint romStep - romPoint 1)) := by
    rw [romPoint_succ]
    ring
  have hturn := norm_romTurn_sub_le p
  have hkept : ‖(walkPoint p - romPoint k) * walkPoint romStep‖ ≤ k * (romSlack / 10 ^ 15) := by
    rw [norm_mul]
    exact (mul_le_of_le_one_right (norm_nonneg _) norm_walkPoint_romStep).trans h
  have hstep : ‖romPoint k * (walkPoint romStep - romPoint 1)‖ ≤ 598 / 10 ^ 15 := by
    rw [norm_mul, norm_romPoint, one_mul]
    exact norm_romStep_sub_le
  have hslack : (romSlack : ℝ) = 600 := by norm_num [romSlack]
  rw [WalkAt, hsplit]
  have hnorm := norm_add₃_le (a := walkPoint (Machine.romTurn p) - walkPoint p * walkPoint romStep)
    (b := (walkPoint p - romPoint k) * walkPoint romStep)
    (c := romPoint k * (walkPoint romStep - romPoint 1))
  rw [add_assoc] at hnorm
  push_cast
  rw [hslack] at hkept ⊢
  linarith

/-- An entry that the walk rounds is nearer than 1/2 to the scaled sine. -/
theorem abs_sine_sub_lt_of_roundsEntry {k : Nat} {p : Int × Int} {v : Int} (hk : k < 4096)
    (h : WalkAt k p) (hround : roundsEntry p.2 v = true) :
    |32767 * Real.sin (k * romAngle) - v| < 1 / 2 := by
  have him := (Complex.abs_im_le_norm _).trans h
  simp only [walkPoint, romPoint, Complex.sub_im, Complex.exp_ofReal_mul_I_im] at him
  rw [roundsEntry, decide_eq_true_eq, ← Nat.cast_lt (α := ℝ)] at hround
  push_cast [Nat.cast_natAbs] at hround
  have hslack : (romSlack : ℝ) = 600 := by norm_num [romSlack]
  have hk' : (k : ℝ) ≤ 4096 := by exact_mod_cast hk.le
  rw [hslack] at him hround
  rw [← lt_sub_iff_add_lt, ← lt_div_iff₀ two_pos, abs_lt] at hround
  rw [abs_le] at him
  rw [abs_lt]
  constructor <;> linarith

/-- Along the walk every entry is nearer than 1/2 to the scaled sine. -/
theorem abs_sine_sub_lt_of_walkRounds {fuel k : Nat} {p : Int × Int} (hfuel : k + fuel ≤ 4096)
    (h : WalkAt k p) (hwalk : walkRounds fuel k p = true) {j : Nat} (hlo : k ≤ j) (hhi : j < k + fuel) :
    |32767 * Real.sin (j * romAngle) - sineRom j| < 1 / 2 := by
  induction fuel generalizing k p with
  | zero => omega
  | succ fuel ih =>
    rw [walkRounds, Bool.and_eq_true] at hwalk
    obtain ⟨hhere, hrest⟩ := hwalk
    obtain rfl | hlt := Nat.eq_or_lt_of_le hlo
    · exact abs_sine_sub_lt_of_roundsEntry (by omega) h hhere
    · exact ih (by omega) h.romTurn hrest hlt (by omega)

/-- Every entry of SINE_ROM is nearer than 1/2 to the scaled sine, so no tie arises (R150). -/
theorem abs_sine_sub_sineRom_lt {k : Nat} (hk : k < 4096) :
    |32767 * Real.sin (2 * Real.pi * k / 4096) - sineRom k| < 1 / 2 := by
  have hangle : 2 * Real.pi * k / 4096 = k * romAngle := by rw [romAngle]; ring
  rw [hangle]
  exact abs_sine_sub_lt_of_walkRounds (by omega) walkAt_start walkRounds_rom (Nat.zero_le k) (by omega)

/-- The integer nearer than 1/2 is the one that rounding gives. -/
theorem floor_add_half_of_abs_sub_lt {x : ℝ} {v : Int} (h : |x - v| < 1 / 2) : ⌊x + 1 / 2⌋ = v := by
  rw [abs_lt] at h
  rw [Int.floor_eq_iff]
  constructor <;> linarith

/-- Settles O34. -/
theorem sineRomRoundsTheSine : Obligations.SineRomRoundsTheSine := by
  intro k hk
  have hnear := abs_sine_sub_sineRom_lt hk
  refine ⟨fun _ => (floor_add_half_of_abs_sub_lt hnear).symm, fun _ => ?_⟩
  have hneg : ⌊-(32767 * Real.sin (2 * Real.pi * k / 4096)) + 1 / 2⌋ = -sineRom k := by
    refine floor_add_half_of_abs_sub_lt ?_
    rw [← abs_neg]
    push_cast
    ring_nf at hnear ⊢
    exact hnear
  rw [hneg, neg_neg]

/-! ### Every sample is near the sine of the realised frequency (R154) -/

/-- Cutting the phase to its top 12 bits moves the angle by less than one entry. -/
theorem sine_phase_sub_sine_entry_le (p : Nat) :
    |Real.sin (2 * Real.pi * p / 2 ^ 32) - Real.sin (2 * Real.pi * (p / 2 ^ 20 : Nat) / 4096)| ≤
      2 * Real.pi / 4096 := by
  have hlow : ((p % 2 ^ 20 : Nat) : ℝ) ≤ 2 ^ 20 := by exact_mod_cast (Nat.mod_lt p (by norm_num)).le
  have hp : (p : ℝ) = 2 ^ 20 * (p / 2 ^ 20 : Nat) + (p % 2 ^ 20 : Nat) := by
    exact_mod_cast (Nat.div_add_mod p (2 ^ 20)).symm
  have hdiff : 2 * Real.pi * p / 2 ^ 32 - 2 * Real.pi * (p / 2 ^ 20 : Nat) / 4096 =
      2 * Real.pi / 4096 * ((p % 2 ^ 20 : Nat) / 2 ^ 20) := by
    rw [hp]
    ring
  refine (Real.abs_sin_sub_sin_le _ _).trans ?_
  rw [hdiff, abs_of_nonneg (by positivity)]
  exact mul_le_of_le_one_right (by positivity) ((div_le_one (by positivity)).2 hlow)

/-- Whole turns of the phase accumulator do not change the sine (R152). -/
theorem sine_phase (ftw : Word) (n : Nat) :
    Real.sin (2 * Real.pi * (ftw.toNat * n) / 2 ^ 32) = Real.sin (2 * Real.pi * phase ftw n / 2 ^ 32) := by
  have hturns : (ftw.toNat * n : ℝ) = 2 ^ 32 * (n * ftw.toNat / 2 ^ 32 : Nat) + phase ftw n := by
    rw [mul_comm]
    exact_mod_cast (Nat.div_add_mod (n * ftw.toNat) (2 ^ 32)).symm
  rw [← Real.sin_add_nat_mul_two_pi (2 * Real.pi * phase ftw n / 2 ^ 32) (n * ftw.toNat / 2 ^ 32), hturns]
  ring_nf

/-- Settles O35: half a unit from the rounding of the entry, the rest from the cut of the phase. -/
theorem waveIsCloseToTheSine : Obligations.WaveIsCloseToTheSine := by
  rintro ftw n f rfl
  have hpi := Real.pi_lt_d4
  refine ⟨?_, by linarith⟩
  have hangle : 2 * Real.pi * (ftw.toNat * 22050 / 2 ^ 32) * n / 22050 =
      2 * Real.pi * (ftw.toNat * n) / 2 ^ 32 := by ring
  have hentry : phase ftw n / 2 ^ 20 < 4096 := by
    have : phase ftw n < 2 ^ 32 := Nat.mod_lt _ (by norm_num)
    omega
  have hrom := abs_sine_sub_sineRom_lt hentry
  have hcut := sine_phase_sub_sine_entry_le (phase ftw n)
  rw [hangle, sine_phase, wave]
  rw [abs_lt] at hrom
  rw [abs_le] at hcut ⊢
  constructor <;> linarith

end Sys2Proof.Machine

/-! ## The synthesizer (42_synthesizer.md R155 to R165) -/

namespace Sys2Proof.Machine

open Sys2Proof

/-! ### The engines share no mutable state (R165) -/

/-- Only SYM_OUT hands a word to the consumer of M_SYM_OUT. -/
theorem exec_symWords {i : Instr} {s t : State} (h : exec i s = .next t) (hi : i ≠ .symOut) :
    t.symWords = s.symWords := by
  cases i
  case symOut => exact absurd rfl hi
  case symIn v => cases h; split <;> rfl
  case smpOut => cases h; split <;> rfl
  case smpIn x last => cases h; split <;> rfl
  case synLoad => cases h; split <;> rfl
  all_goals cases h; rfl

/-- Only SMP_OUT hands a word to the consumer of M_SMP_OUT. -/
theorem exec_smpWords {i : Instr} {s t : State} (h : exec i s = .next t) (hi : i ≠ .smpOut) :
    t.smpWords = s.smpWords := by
  cases i
  case smpOut => exact absurd rfl hi
  case symIn v => cases h; split <;> rfl
  case smpIn x last => cases h; split <;> rfl
  case synLoad => cases h; split <;> rfl
  case symOut =>
    simp only [exec, execSymOut] at h
    split at h <;> cases h <;> rfl
  all_goals cases h; rfl

/-- SYM_OUT takes from `so`, which the synthesizer does not see (R188). -/
theorem popSo_sameSynth (b : Block) : SameSynth b { b with so := b.so.tail } := by
  simp [SameSynth, SameConfig]

/-- Settles O53, operation by operation on the block (`exec_blk`). -/
theorem enginesShareNoMutableState : Obligations.EnginesShareNoMutableState := by
  intro i s t hexec
  rw [exec_blk hexec]
  constructor
  · rintro (⟨v, rfl⟩ | rfl | rfl) <;> refine ⟨?_, exec_symWords hexec nofun⟩
    · exact keeps_ite (SameDetector s.blk) (fun _ => symInBlock_sameDetector v _) (.refl _)
    · exact keeps_ite (SameDetector s.blk) (fun _ => smpOutBlock_sameDetector _) (.refl _)
    · exact keeps_ite (SameDetector s.blk) (fun _ => synLoadBlock_sameDetector _) (.refl _)
  · rintro (⟨x, last, rfl⟩ | rfl) <;> refine ⟨?_, exec_smpWords hexec nofun⟩
    · exact keeps_ite (SameSynth s.blk) (fun _ => smpInBlock_sameSynth x last _) (.refl _)
    · exact popSo_sameSynth _

/-! ### SYM_IN (R157, R158) -/

theorem symInReady_iff (d : Config.Depths) (b : Block) :
    symInReady d b = true ↔ b.active = true ∧ b.synHalt = false ∧ b.si.length < d.dSi := by
  simp [symInReady, and_assoc]

theorem exec_symIn_ready {s : State} (v : Byte) (h : symInReady s.depths s.blk = true) :
    exec (.symIn v) s = .next { s with blk := symInBlock v s.blk } := by
  rw [exec, execSymIn, if_pos h]

/-- Settles O36. -/
theorem symInPushesOrWaits : Obligations.SymInPushesOrWaits := by
  refine fun s v => ⟨rfl, fun hactive hhalt hroom => ?_, fun hnot => exec_waits ?_⟩
  · exact exec_symIn_ready v ((symInReady_iff _ _).2 ⟨hactive, hhalt, hroom⟩)
  · rw [enabled, ← Bool.not_eq_true, symInReady_iff]
    rintro ⟨hactive, hhalt, hroom⟩
    obtain h | h | h := hnot
    · simp [hactive] at h
    · simp [hhalt] at h
    · omega

/-! ### SYN_LOAD (R159) -/

theorem synLoadEnabled_iff (b : Block) :
    synLoadEnabled b = true ↔
      b.active = true ∧ b.synHalt = false ∧ b.synBusy = false ∧ b.si ≠ [] := by
  simp [synLoadEnabled, and_assoc, List.length_pos_iff]

theorem exec_synLoad_enabled {s : State} (h : synLoadEnabled s.blk = true) :
    exec .synLoad s = .next { s with blk := synLoadBlock s.blk } := by
  rw [exec, execSynLoad, if_pos h]

/-- The head of `si` is in range, so its tone starts. -/
theorem synLoadBlock_inRange {b : Block} {v : Byte} {rest : List Byte} (hsi : b.si = v :: rest)
    (hv : v.toNat < alphabet b) :
    synLoadBlock b =
      { b with si := rest, synSym := BitVec.ofNat 6 v.toNat, synN := 0#16, synBusy := true } := by
  obtain ⟨hge, -⟩ | ⟨-, h⟩ := synLoadBlock_cons hsi
  · omega
  · exact h

/-- The head of `si` is out of range, so the synthesizer halts. -/
theorem synLoadBlock_outOfRange {b : Block} {v : Byte} {rest : List Byte} (hsi : b.si = v :: rest)
    (hv : alphabet b ≤ v.toNat) :
    synLoadBlock b = raise .errSor .sor v { b with si := rest, synHalt := true } := by
  obtain ⟨-, h⟩ | ⟨hlt, -⟩ := synLoadBlock_cons hsi
  · exact h
  · omega

/-- Settles O37. -/
theorem synLoadStartsOrHalts : Obligations.SynLoadStartsOrHalts := by
  refine fun s => ⟨fun v rest hactive hhalt hbusy hsi => ?_, fun hnot => exec_waits ?_⟩
  · have hen := (synLoadEnabled_iff s.blk).2 ⟨hactive, hhalt, hbusy, by simp [hsi]⟩
    rw [exec_synLoad_enabled hen]
    refine ⟨fun hv => ?_, fun hv => ?_⟩
    · rw [synLoadBlock_inRange hsi hv]
    · rw [synLoadBlock_outOfRange hsi hv]
      rfl
  · rw [enabled, ← Bool.not_eq_true, synLoadEnabled_iff]
    rintro ⟨hactive, hhalt, hbusy, hsi⟩
    simp [hactive, hhalt, hbusy, hsi] at hnot

/-! ### SMP_OUT (R160, R161) -/

theorem smpOutValid_iff (b : Block) : smpOutValid b = true ↔ b.active = true ∧ b.synBusy = true := by
  simp [smpOutValid]

theorem exec_smpOut_valid {s : State} (h : smpOutValid s.blk = true) :
    exec .smpOut s =
      .next { s with blk := smpOutBlock s.blk, smpWords := s.smpWords ++ [smpOutNow s.blk] } := by
  rw [exec, execSmpOut, if_pos h]

/-- Before the last sample the index advances. -/
theorem smpOutBlock_next {b : Block} (h : b.synN.toNat + 1 ≠ b.sps.toNat) :
    smpOutBlock b = { b with synN := b.synN + 1#16 } := by
  obtain ⟨hlast, -⟩ | ⟨-, hnext⟩ := smpOutBlock_cases b
  · exact absurd hlast h
  · exact hnext

/-- At the last sample the tone ends, with the idle check (R161) written as the events it sets. -/
theorem smpOutBlock_last {b : Block} (h : b.synN.toNat + 1 = b.sps.toNat) :
    smpOutBlock b =
      { b with
        synBusy := false, synN := 0#16, synSym := 0#6, symcnt := b.symcnt + 1#32
        events := if b.si = [] then b.events ||| 0x01#7 else b.events } := by
  obtain ⟨-, hlast⟩ | ⟨hnext, -⟩ := smpOutBlock_cases b
  · rw [hlast, synIdleCheck, clearTone_si]
    split <;> rfl
  · exact absurd h hnext

/-- The word a transfer carries, with SYM_LAST as known. -/
theorem smpOutNow_eq {b : Block} {last : Bool} (h : atLastSample b = last) :
    smpOutNow b =
      BitVec.ofBool last ++
        BitVec.ofInt 16 (wave (b.tone[b.synSym.toNat]'b.synSym.isLt) b.synN.toNat) := by
  rw [smpOutNow, h, toneAt, laneD_of_lt _ _ b.synSym.isLt]
  rfl

/-- Settles O38. -/
theorem smpOutEmitsTheTone : Obligations.SmpOutEmitsTheTone := by
  refine fun s => ⟨fun hactive hbusy hne => ?_, fun hactive hbusy hlast => ?_, fun hnot => exec_waits ?_⟩
  · rw [exec_smpOut_valid ((smpOutValid_iff _).2 ⟨hactive, hbusy⟩), smpOutBlock_next hne,
      smpOutNow_eq (decide_eq_false hne)]
    rfl
  · rw [exec_smpOut_valid ((smpOutValid_iff _).2 ⟨hactive, hbusy⟩), smpOutBlock_last hlast,
      smpOutNow_eq (decide_eq_true hlast)]
    rfl
  · rw [enabled, ← Bool.not_eq_true, smpOutValid_iff]
    rintro ⟨hactive, hbusy⟩
    simp [hactive, hbusy] at hnot

/-! ### A whole tone (R155) -/

theorem execAll_cons {i : Instr} {s t : State} (is : List Instr) (h : exec i s = .next t) :
    execAll (i :: is) s = execAll is t := by
  rw [execAll, h]

@[simp] theorem length_toneWords (ftw : Word) (sps : Nat) : (toneWords ftw sps).length = sps := by
  simp [toneWords]

/-- The words of the tone that is being emitted. -/
def runningTone (b : Block) : List (BitVec 17) := toneWords (toneAt b b.synSym.toNat) b.sps.toNat

@[simp] theorem length_runningTone (b : Block) : (runningTone b).length = b.sps.toNat :=
  length_toneWords _ _

/-- A transfer carries the word of the running tone at its index. -/
theorem smpOutNow_eq_getElem {b : Block} (h : b.synN.toNat < (runningTone b).length) :
    smpOutNow b = (runningTone b)[b.synN.toNat] := by
  simp [runningTone, toneWords, smpOutNow, atLastSample]

/-- What is left of the running tone begins with the word of the next transfer. -/
theorem drop_runningTone {b : Block} (h : b.synN.toNat < b.sps.toNat) :
    (runningTone b).drop b.synN.toNat = smpOutNow b :: (runningTone b).drop (b.synN.toNat + 1) := by
  have hindex : b.synN.toNat < (runningTone b).length := by rwa [length_runningTone]
  rw [List.drop_eq_getElem_cons hindex, smpOutNow_eq_getElem hindex]

/-- What is taken of the running tone ends with the word of the transfer just made. -/
theorem take_runningTone {b : Block} (h : b.synN.toNat < b.sps.toNat) :
    (runningTone b).take (b.synN.toNat + 1) = (runningTone b).take b.synN.toNat ++ [smpOutNow b] := by
  have hindex : b.synN.toNat < (runningTone b).length := by rwa [length_runningTone]
  rw [List.take_succ_eq_append_getElem hindex, smpOutNow_eq_getElem hindex]

/-- With `m` samples before the last still to come, m + 1 transfers emit what is left of the tone and end it. -/
theorem execAll_smpOut_rest (m : Nat) {s : State} (hactive : s.blk.active = true)
    (hbusy : s.blk.synBusy = true) (hrest : s.blk.synN.toNat + (m + 1) = s.blk.sps.toNat) :
    execAll (List.replicate (m + 1) .smpOut) s = .next { s with
      blk := { s.blk with
        synBusy := false, synN := 0#16, synSym := 0#6, symcnt := s.blk.symcnt + 1#32
        events := if s.blk.si = [] then s.blk.events ||| 0x01#7 else s.blk.events }
      smpWords := s.smpWords ++ (runningTone s.blk).drop s.blk.synN.toNat } := by
  induction m generalizing s with
  | zero =>
    have hnil : (runningTone s.blk).drop (s.blk.synN.toNat + 1) = [] := by
      simp [List.drop_eq_nil_iff, hrest]
    rw [List.replicate_one, execAll_cons _ (exec_smpOut_valid ((smpOutValid_iff _).2 ⟨hactive, hbusy⟩)),
      smpOutBlock_last hrest, drop_runningTone (by omega), hnil]
    rfl
  | succ m ih =>
    have hadvance : (s.blk.synN + 1#16).toNat = s.blk.synN.toNat + 1 := by bv_omega
    have hrest' : (s.blk.synN + 1#16).toNat + (m + 1) = s.blk.sps.toNat := by omega
    rw [List.replicate_succ, execAll_cons _ (exec_smpOut_valid ((smpOutValid_iff _).2 ⟨hactive, hbusy⟩)),
      smpOutBlock_next (by omega)]
    refine (ih ?_ ?_ ?_).trans ?_
    · exact hactive
    · exact hbusy
    · exact hrest'
    · rw [List.append_assoc, hadvance, drop_runningTone (by omega)]
      rfl

/-- Settles O39: from index 0 what is left of the tone is all of it. -/
theorem wholeToneIsEmitted : Obligations.WholeToneIsEmitted := by
  intro s hactive hbusy hn hsps
  have hindex : s.blk.synN.toNat = 0 := by simp [hn]
  obtain ⟨m, hm⟩ := Nat.exists_eq_add_of_le' hsps
  have hall := execAll_smpOut_rest m hactive hbusy (by omega)
  rw [hindex, List.drop_zero, ← hm, ← hn] at hall
  exact hall

/-! ### The emitted stream, under every interleaving (R156, R163) -/

theorem SameSynth.runningTone_eq {b c : Block} (h : SameSynth b c) : runningTone c = runningTone b := by
  obtain ⟨-, hcfg, -, -, hsym, -⟩ := h
  have htone := hcfg.toneAt_eq
  obtain ⟨-, hsps, -⟩ := hcfg
  rw [runningTone, runningTone, htone, hsym, hsps]

theorem offeredSymbol_eq_some {i : Instr} {v : Byte} (h : offeredSymbol i = some v) : i = .symIn v := by
  cases i <;> cases h
  rfl

/-- In a session only STOP and the synthesizer's own operations touch what the synthesizer reads or owns. -/
theorem blockAfter_sameSynth (d : Config.Depths) {i : Instr} {b : Block} (hactive : b.active = true)
    (hstop : i ≠ .stop) (hin : offeredSymbol i = none) (hload : i ≠ .synLoad) (hout : i ≠ .smpOut) :
    SameSynth b (blockAfter d i b) := by
  have hlocked (addr : BitVec 9) (store : Block → Block) : SameSynth b (writeRwl addr store b) := by
    rw [writeRwl, if_pos hactive]
    exact raise_sameSynth _ _ _ b
  cases i
  case stop => exact absurd rfl hstop
  case symIn v => simp [offeredSymbol] at hin
  case synLoad => exact absurd rfl hload
  case smpOut => exact absurd rfl hout
  case start =>
    rw [blockAfter, startBlock, if_pos hactive]
    exact raise_sameSynth _ _ _ b
  case flush => exact flushBlock_sameSynth b
  case cmdIllegal w => exact raise_sameSynth _ _ _ b
  case wrCfg w => exact hlocked _ _
  case wrSps w => exact hlocked _ _
  case wrSrcRate w => exact hlocked _ _
  case wrTone k w => exact hlocked _ _
  case smpIn x last => exact keeps_ite (SameSynth b) (fun _ => smpInBlock_sameSynth x last b) (.refl b)
  case symOut => exact popSo_sameSynth b
  case wrEvents w => simp [blockAfter, SameSynth, SameConfig]
  case wrIrqEn w => simp [blockAfter, SameSynth, SameConfig]
  all_goals exact .refl b

/-- The stream of a session that began at `s` with the synthesizer idle, in a state `t` where the symbols
`accepted` have crossed S_SYM_IN (R156, R163). -/
structure Streams (s : State) (accepted : List Byte) (t : State) : Prop where
  active : t.blk.active = true
  notHalted : t.blk.synHalt = false
  sameConfig : SameConfig s.blk t.blk
  inRange : ∀ v ∈ t.blk.si, v.toNat < alphabet s.blk
  indexFits : t.blk.synBusy = true → t.blk.synN.toNat < s.blk.sps.toNat
  tones : ∃ done : List Byte,
    accepted = done ++ inFlight t.blk ++ t.blk.si ∧
    t.smpWords = s.smpWords ++
      done.flatMap (fun v => toneWords (toneAt s.blk v.toNat) s.blk.sps.toNat) ++ toneSoFar t.blk ∧
    t.blk.symcnt = s.blk.symcnt + BitVec.ofNat 32 done.length

theorem inFlight_idle {b : Block} (h : b.synBusy = false) : inFlight b = [] := by simp [inFlight, h]

theorem toneSoFar_idle {b : Block} (h : b.synBusy = false) : toneSoFar b = [] := by simp [toneSoFar, h]

theorem toneSoFar_busy {b : Block} (h : b.synBusy = true) :
    toneSoFar b = (runningTone b).take b.synN.toNat := by
  simp [toneSoFar, runningTone, h]

theorem Streams.start {s : State} (hactive : s.blk.active = true) (hhalt : s.blk.synHalt = false)
    (hbusy : s.blk.synBusy = false) (hsi : s.blk.si = []) : Streams s [] s where
  active := hactive
  notHalted := hhalt
  sameConfig := .refl _
  inRange := by simp [hsi]
  indexFits := by simp [hbusy]
  tones := ⟨[], by simp [inFlight_idle hbusy, hsi], by simp [toneSoFar_idle hbusy], by simp⟩

/-- What does not touch the synthesizer does not touch the stream. -/
theorem Streams.congr {s t u : State} {accepted : List Byte} (h : Streams s accepted t)
    (hsame : SameSynth t.blk u.blk) (hwords : u.smpWords = t.smpWords) : Streams s accepted u := by
  have hrun := hsame.runningTone_eq
  obtain ⟨hactive, hcfg, hsi, hbusy, hsym, hn, hhalt, hcnt⟩ := hsame
  have hflight : inFlight u.blk = inFlight t.blk := by rw [inFlight, inFlight, hbusy, hsym]
  have hsofar : toneSoFar u.blk = toneSoFar t.blk := by
    cases hb : t.blk.synBusy with
    | false => rw [toneSoFar_idle hb, toneSoFar_idle (hbusy.trans hb)]
    | true => rw [toneSoFar_busy hb, toneSoFar_busy (hbusy.trans hb), hrun, hn]
  obtain ⟨hbps, hsps, hrate, htone⟩ := hcfg
  obtain ⟨hbps', hsps', hrate', htone'⟩ := h.sameConfig
  constructor
  · rw [hactive]; exact h.active
  · rw [hhalt]; exact h.notHalted
  · exact ⟨hbps.trans hbps', hsps.trans hsps', hrate.trans hrate', htone.trans htone'⟩
  · rw [hsi]; exact h.inRange
  · rw [hbusy, hn]; exact h.indexFits
  · rw [hflight, hsi, hwords, hsofar, hcnt]; exact h.tones

/-- SYM_IN appends to the accepted symbols and to `si` (R158). -/
theorem Streams.symIn {s t : State} {accepted : List Byte} (h : Streams s accepted t) {v : Byte}
    (hv : v.toNat < alphabet s.blk) :
    Streams s (accepted ++ [v]) { t with blk := symInBlock v t.blk } where
  active := h.active
  notHalted := h.notHalted
  sameConfig := h.sameConfig
  inRange w hw := by
    obtain hw | hw := List.mem_append.1 hw
    · exact h.inRange w hw
    · rwa [List.mem_singleton.1 hw]
  indexFits := h.indexFits
  tones := by
    obtain ⟨done, hacc, hwords, hcnt⟩ := h.tones
    refine ⟨done, ?_, hwords, hcnt⟩
    rw [hacc, List.append_assoc]
    rfl

/-- An in-range symbol of a legal alphabet fits the 6 bits of `syn_sym`. -/
theorem zeroExtend_ofNat_of_lt_alphabet {b : Block} (hbps : b.bps.toNat ≤ 6) {v : Byte}
    (hv : v.toNat < alphabet b) : (BitVec.ofNat 6 v.toNat).zeroExtend 8 = v := by
  have := alphabet_le b hbps
  apply BitVec.eq_of_toNat_eq
  simp
  omega

/-- SYN_LOAD moves the oldest waiting symbol to the tone in flight (R159). -/
theorem Streams.synLoad {s t : State} {accepted : List Byte} (h : Streams s accepted t)
    (hbps : s.blk.bps.toNat ≤ 6) (hsps : 1 ≤ s.blk.sps.toNat) (hen : synLoadEnabled t.blk = true) :
    Streams s accepted { t with blk := synLoadBlock t.blk } := by
  obtain ⟨-, -, hbusy, hne⟩ := (synLoadEnabled_iff t.blk).1 hen
  obtain ⟨v, rest, hsi⟩ := List.exists_cons_of_ne_nil hne
  have hrange := h.inRange
  rw [hsi, List.forall_mem_cons] at hrange
  obtain ⟨hv, hrest⟩ := hrange
  rw [synLoadBlock_inRange hsi (by rwa [h.sameConfig.alphabet_eq])]
  obtain ⟨done, hacc, hwords, hcnt⟩ := h.tones
  rw [inFlight_idle hbusy, hsi, List.append_nil] at hacc
  rw [toneSoFar_idle hbusy] at hwords
  refine ⟨h.active, h.notHalted, h.sameConfig, hrest, fun _ => hsps, done, ?_, ?_, hcnt⟩
  · simp only [inFlight, if_true, zeroExtend_ofNat_of_lt_alphabet hbps hv]
    simpa using hacc
  · simpa [toneSoFar] using hwords

/-- Before the last sample SMP_OUT lengthens what has been taken of the running tone (R160). -/
theorem Streams.smpOut_next {s t : State} {accepted : List Byte} (h : Streams s accepted t)
    (hbusy : t.blk.synBusy = true) (hne : t.blk.synN.toNat + 1 ≠ t.blk.sps.toNat) :
    Streams s accepted
      { t with blk := smpOutBlock t.blk, smpWords := t.smpWords ++ [smpOutNow t.blk] } := by
  obtain ⟨-, hsps, -⟩ := h.sameConfig
  have hindex := h.indexFits hbusy
  rw [← hsps] at hindex
  have hadvance : (t.blk.synN + 1#16).toNat = t.blk.synN.toNat + 1 := by bv_omega
  obtain ⟨done, hacc, hwords, hcnt⟩ := h.tones
  rw [smpOutBlock_next hne]
  refine ⟨h.active, h.notHalted, h.sameConfig, h.inRange, fun _ => ?_, done, hacc, ?_, hcnt⟩
  · rw [hadvance, ← hsps]
    omega
  · have htaken : toneSoFar { t.blk with synN := t.blk.synN + 1#16 } =
        toneSoFar t.blk ++ [smpOutNow t.blk] := by
      rw [toneSoFar_busy hbusy, ← take_runningTone (by omega), ← hadvance]
      exact toneSoFar_busy hbusy
    rw [htaken, hwords, List.append_assoc]

/-- At the last sample SMP_OUT moves the tone in flight to those done and counts it (R160). -/
theorem Streams.smpOut_last {s t : State} {accepted : List Byte} (h : Streams s accepted t)
    (hbusy : t.blk.synBusy = true) (hlast : t.blk.synN.toNat + 1 = t.blk.sps.toNat) :
    Streams s accepted
      { t with blk := smpOutBlock t.blk, smpWords := t.smpWords ++ [smpOutNow t.blk] } := by
  have htone := h.sameConfig.toneAt_eq
  obtain ⟨-, hsps, -⟩ := h.sameConfig
  obtain ⟨done, hacc, hwords, hcnt⟩ := h.tones
  have hwhole : toneSoFar t.blk ++ [smpOutNow t.blk] =
      toneWords (toneAt s.blk (t.blk.synSym.zeroExtend 8).toNat) s.blk.sps.toNat := by
    have hsym : (t.blk.synSym.zeroExtend 8).toNat = t.blk.synSym.toNat := by
      simp
      omega
    rw [toneSoFar_busy hbusy, ← take_runningTone (by omega), hlast, ← length_runningTone,
      List.take_length, runningTone, htone, hsps, hsym]
  rw [smpOutBlock_last hlast]
  refine ⟨h.active, h.notHalted, h.sameConfig, h.inRange, by simp,
    done ++ [t.blk.synSym.zeroExtend 8], ?_, ?_, ?_⟩
  · simpa [inFlight, hbusy] using hacc
  · rw [toneSoFar_idle rfl, hwords, List.append_assoc, hwhole]
    simp
  · simp [hcnt, add_assoc, BitVec.ofNat_add]

/-- The symbols that one operation gets accepted on S_SYM_IN. -/
def acceptedNow (i : Instr) (s : State) : List Byte :=
  if enabled s.depths s.blk i then (offeredSymbol i).toList else []

theorem acceptedSymbols_cons {i : Instr} {s t : State} (is : List Instr) (h : exec i s = .next t) :
    acceptedSymbols (i :: is) s = acceptedNow i s ++ acceptedSymbols is t := by
  rw [acceptedSymbols, h, acceptedNow]

/-- Every operation but STOP carries the stream on, in-range symbols given. -/
theorem Streams.exec {s t u : State} {accepted : List Byte} {i : Instr} (h : Streams s accepted t)
    (hbps : s.blk.bps.toNat ≤ 6) (hsps : 1 ≤ s.blk.sps.toNat) (hstop : i ≠ .stop)
    (hrange : ∀ v : Byte, i = .symIn v → v.toNat < alphabet s.blk) (hexec : exec i t = .next u) :
    Streams s (accepted ++ acceptedNow i t) u := by
  cases hen : enabled t.depths t.blk i with
  | false =>
    rw [exec_waits hen] at hexec
    cases hexec
    simpa [acceptedNow, hen] using h
  | true =>
    rw [acceptedNow, if_pos hen]
    cases hoffer : offeredSymbol i with
    | some v =>
      obtain rfl := offeredSymbol_eq_some hoffer
      rw [exec_symIn_ready v hen] at hexec
      cases hexec
      exact h.symIn (hrange v rfl)
    | none =>
      rw [Option.toList_none, List.append_nil]
      by_cases hload : i = .synLoad
      · subst hload
        rw [exec_synLoad_enabled hen] at hexec
        cases hexec
        exact h.synLoad hbps hsps hen
      by_cases hout : i = .smpOut
      · subst hout
        rw [exec_smpOut_valid hen] at hexec
        cases hexec
        obtain ⟨-, hbusy⟩ := (smpOutValid_iff _).1 hen
        by_cases hlast : t.blk.synN.toNat + 1 = t.blk.sps.toNat
        · exact h.smpOut_last hbusy hlast
        · exact h.smpOut_next hbusy hlast
      refine h.congr ?_ (exec_smpWords hexec hout)
      rw [exec_blk hexec]
      exact blockAfter_sameSynth _ h.active hstop hoffer hload hout

theorem Streams.execAll {s t : State} {accepted : List Byte} {is : List Instr} (h : Streams s accepted t)
    (hbps : s.blk.bps.toNat ≤ 6) (hsps : 1 ≤ s.blk.sps.toNat) (hstop : .stop ∉ is)
    (hrange : ∀ v : Byte, .symIn v ∈ is → v.toNat < alphabet s.blk) :
    ∃ u, execAll is t = .next u ∧ Streams s (accepted ++ acceptedSymbols is t) u := by
  induction is generalizing t accepted with
  | nil => exact ⟨t, rfl, by simpa [acceptedSymbols] using h⟩
  | cons i is ih =>
    obtain ⟨t', hexec, -⟩ := exec_next i t
    rw [List.mem_cons, not_or] at hstop
    obtain ⟨hi, his⟩ := hstop
    have hnext := h.exec hbps hsps (Ne.symm hi) (fun v hv => hrange v (by simp [hv])) hexec
    obtain ⟨u, hu, hstreams⟩ := ih hnext his fun v hv => hrange v (List.mem_cons_of_mem _ hv)
    refine ⟨u, ?_, ?_⟩
    · rwa [execAll_cons is hexec]
    · rwa [acceptedSymbols_cons is hexec, ← List.append_assoc]

/-- Settles O40: the run starts a stream, and every operation carries it on. -/
theorem emittedStreamIsTheTones : Obligations.EmittedStreamIsTheTones := by
  intro is s hactive hhalt hbusy hsi hsps hbps hstop hrange
  have hstart := Streams.start hactive hhalt hbusy hsi
  obtain ⟨t, hrun, hstreams⟩ := hstart.execAll hbps hsps hstop hrange
  obtain ⟨done, haccepted, hwords, hcount⟩ := hstreams.tones
  exact ⟨t, done, hrun, haccepted, hwords, hcount⟩

end Sys2Proof.Machine

/-! ## The detector (43_detector.md R180 to R197) -/

namespace Sys2Proof.Machine

open Sys2Proof

/-! ### The decision (R182) -/

/-- Lane `k` is the lowest of the `m` active lanes that hold the maximum (R182). -/
structure IsLowestMax (acc : Nat → Int) (m k : Nat) : Prop where
  active : k < m
  isMax : ∀ s < m, acc s ≤ acc k
  lowest : ∀ s < k, acc s < acc k

theorem IsLowestMax.unique {acc : Nat → Int} {m j k : Nat} (hj : IsLowestMax acc m j)
    (hk : IsLowestMax acc m k) : j = k := by
  obtain hlt | heq | hgt := Nat.lt_trichotomy j k
  · exact absurd (hj.isMax k hk.active) (not_le.2 (hk.lowest j hlt))
  · exact heq
  · exact absurd (hk.isMax j hj.active) (not_le.2 (hj.lowest k hgt))

/-- One more lane is decided by one more strict comparison. -/
theorem argmaxLowest_succ (acc : Nat → Int) {m : Nat} (hm : 1 ≤ m) :
    argmaxLowest acc (m + 1) =
      if acc (argmaxLowest acc m) < acc m then m else argmaxLowest acc m := by
  obtain ⟨n, rfl⟩ := Nat.exists_eq_add_of_le' hm
  simp [argmaxLowest, List.range'_1_concat, Nat.add_comm]

theorem isLowestMax_argmaxLowest (acc : Nat → Int) {m : Nat} (hm : 1 ≤ m) :
    IsLowestMax acc m (argmaxLowest acc m) := by
  induction m, hm using Nat.le_induction with
  | base =>
    have honly (s : Nat) (hs : s < 1) : acc s ≤ acc 0 := by rw [Nat.lt_one_iff.1 hs]
    exact ⟨one_pos, honly, fun s hs => absurd hs s.not_lt_zero⟩
  | succ m hm ih =>
    obtain ⟨hactive, hmax, hlowest⟩ := ih
    rw [argmaxLowest_succ acc hm]
    split
    case isTrue hnew =>
      have hbelow (s : Nat) (hs : s < m) : acc s < acc m := (hmax s hs).trans_lt hnew
      refine ⟨m.lt_succ_self, fun s hs => ?_, hbelow⟩
      obtain hs | rfl := Nat.lt_succ_iff_lt_or_eq.1 hs
      · exact (hbelow s hs).le
      · exact le_rfl
    case isFalse hold =>
      refine ⟨hactive.trans m.lt_succ_self, fun s hs => ?_, hlowest⟩
      obtain hs | rfl := Nat.lt_succ_iff_lt_or_eq.1 hs
      · exact hmax s hs
      · exact not_lt.1 hold

/-- Settles O41. -/
theorem argmaxIsLowestMaximum : Obligations.ArgmaxIsLowestMaximum := by
  intro acc m hm
  obtain ⟨hactive, hmax, hlowest⟩ := isLowestMax_argmaxLowest acc hm
  exact ⟨hactive, hmax, hlowest⟩

theorem argmaxLowest_eq_iff {acc : Nat → Int} {m k : Nat} (hm : 1 ≤ m) :
    argmaxLowest acc m = k ↔ IsLowestMax acc m k := by
  have hdecided := isLowestMax_argmaxLowest acc hm
  exact ⟨fun h => h ▸ hdecided, hdecided.unique⟩

/-- The decision depends on the order of the active lanes only. -/
theorem IsLowestMax.of_order {f g : Nat → Int} {m k : Nat}
    (horder : ∀ s < m, ∀ t < m, f s ≤ f t ↔ g s ≤ g t) (h : IsLowestMax f m k) :
    IsLowestMax g m k where
  active := h.active
  isMax s hs := (horder s hs k h.active).1 (h.isMax s hs)
  lowest s hs := by
    have hle := horder k h.active s (hs.trans h.active)
    exact not_le.1 fun hge => not_le.2 (h.lowest s hs) (hle.2 hge)

theorem argmaxLowest_eq_of_order {f g : Nat → Int} {m : Nat} (hm : 1 ≤ m)
    (horder : ∀ s < m, ∀ t < m, f s ≤ f t ↔ g s ≤ g t) : argmaxLowest g m = argmaxLowest f m :=
  (argmaxLowest_eq_iff hm).2 ((isLowestMax_argmaxLowest f hm).of_order horder)

theorem argmaxLowest_congr {f g : Nat → Int} {m : Nat} (hm : 1 ≤ m) (h : ∀ s < m, f s = g s) :
    argmaxLowest g m = argmaxLowest f m :=
  argmaxLowest_eq_of_order hm fun s hs t ht => by rw [h s hs, h t ht]

/-- Where every active lane is equal, lane 0 is decided (R192). -/
theorem argmaxLowest_eq_zero {acc : Nat → Int} {m : Nat} (hm : 1 ≤ m) (h : ∀ s < m, acc s = acc 0) :
    argmaxLowest acc m = 0 :=
  (argmaxLowest_eq_iff hm).2 ⟨hm, fun s hs => (h s hs).le, by simp⟩

/-! ### Exact correlations (R181) -/

@[simp] theorem corr_nil (ftw : Word) : corr [] ftw = 0 := rfl

/-- One more sample adds one product (R185). -/
theorem corr_concat (w : List Int) (x : Int) (ftw : Word) :
    corr (w ++ [x]) ftw = corr w ftw + x * wave ftw w.length := by
  rw [corr, List.length_append, List.length_singleton, Finset.sum_range_succ]
  congr 1
  · refine Finset.sum_congr rfl fun n hn => ?_
    rw [List.getD_append _ _ _ _ (Finset.mem_range.1 hn)]
  · simp

/-- R194: a scaled window has the scaled correlations. -/
theorem corr_scale (c : Int) (w : List Int) (ftw : Word) : corr (w.map (c * ·)) ftw = c * corr w ftw := by
  rw [corr, corr, List.length_map, Finset.mul_sum]
  refine Finset.sum_congr rfl fun n _ => ?_
  have hscaled : (w.map (c * ·)).getD n 0 = c * w.getD n 0 := by
    simpa using List.getD_map (n := n) w 0 (c * ·)
  rw [hscaled, mul_assoc]

theorem corr_neg (w : List Int) (ftw : Word) : corr (w.map (fun x => -x)) ftw = -corr w ftw := by
  simpa using corr_scale (-1) w ftw

theorem corr_eq_zero_of_silent {w : List Int} (h : ∀ x ∈ w, x = 0) (ftw : Word) : corr w ftw = 0 := by
  rw [List.eq_replicate_of_mem h]
  simp [corr]

/-- R193: every reference tone begins at 0. -/
theorem corr_eq_zero_of_length_one {w : List Int} (h : w.length = 1) (ftw : Word) : corr w ftw = 0 := by
  simp [corr, h, wave_zero]

/-- R195: a tone's own window has the entries of G as its correlations. -/
theorem corr_toneWave (b : Block) (t s : Nat) :
    corr (toneWave (toneAt b t) b.sps.toNat) (toneAt b s) = gram b t s := by
  rw [corr, gram, toneWave, List.length_map, List.length_range]
  refine Finset.sum_congr rfl fun n hn => ?_
  simp [List.getD, Finset.mem_range.1 hn]

/-- Settles O46: the scaled correlations of a positive factor are in the same order. -/
theorem integerScalingKeepsTheSymbol : Obligations.IntegerScalingKeepsTheSymbol := by
  intro b w
  refine ⟨fun c ftw => corr_scale c w ftw, fun c hc => ?_, ?_, ?_⟩
  · refine argmaxLowest_eq_of_order (alphabet_pos b) fun s _ t _ => ?_
    rw [corr_scale, corr_scale, mul_le_mul_iff_right₀ (by omega)]
  · refine argmaxLowest_eq_zero (alphabet_pos b) fun s _ => ?_
    rw [corr_scale, corr_scale, zero_mul, zero_mul]
  · refine argmaxLowest_congr (alphabet_pos b) fun s _ => ?_
    rw [corr_neg]

/-- Settles O47: a silent window and a window of one sample have all correlations 0. -/
theorem equalCorrelationsGiveSymbolZero : Obligations.EqualCorrelationsGiveSymbolZero := by
  intro b w
  refine ⟨fun hequal => ?_, fun hsilent => ?_, fun hone => ?_⟩ <;>
    refine argmaxLowest_eq_zero (alphabet_pos b) fun s hs => ?_
  · exact hequal s hs
  · rw [corr_eq_zero_of_silent hsilent, corr_eq_zero_of_silent hsilent]
  · rw [corr_eq_zero_of_length_one hone, corr_eq_zero_of_length_one hone]

/-- A tone decodes to its own symbol exactly where its row of G has its lowest maximum there. -/
theorem windowSymbol_toneWave_eq_iff (b : Block) (t : Nat) :
    windowSymbol b (toneWave (toneAt b t) b.sps.toNat) = t ↔ IsLowestMax (gram b t) (alphabet b) t := by
  simp only [windowSymbol, corr_toneWave]
  exact argmaxLowest_eq_iff (alphabet_pos b)

/-- The row of R195's predicate for one active symbol. -/
theorem isLowestMax_gram_iff {b : Block} {t : Nat} (ht : t < alphabet b) :
    IsLowestMax (gram b t) (alphabet b) t ↔
      (∀ s < t, gram b t s < gram b t t) ∧ ∀ s < alphabet b, t < s → gram b t s ≤ gram b t t := by
  constructor
  · intro h
    exact ⟨h.lowest, fun s hs _ => h.isMax s hs⟩
  · rintro ⟨hbelow, habove⟩
    refine ⟨ht, fun s hs => ?_, hbelow⟩
    obtain hlt | rfl | hgt := Nat.lt_trichotomy s t
    · exact (hbelow s hlt).le
    · exact le_rfl
    · exact habove s hs hgt

/-- Settles O48, row by row of G. -/
theorem distinguishableIffTonesDecode : Obligations.DistinguishableIffTonesDecode :=
  fun b => forall₂_congr fun t ht => (windowSymbol_toneWave_eq_iff b t).trans (isLowestMax_gram_iff ht)

/-! ### SMP_IN (R184 to R187) -/

theorem smpInReady_iff (d : Config.Depths) (b : Block) :
    smpInReady d b = true ↔ b.active = true ∧ b.so.length < d.dSo := by
  simp [smpInReady]

theorem exec_smpIn_ready {s : State} (x : Sample) (last : Bool) (hactive : s.blk.active = true)
    (hroom : s.blk.so.length < s.depths.dSo) :
    exec (.smpIn x last) s = .next { s with blk := smpInBlock x last s.blk } := by
  rw [exec, execSmpIn, if_pos ((smpInReady_iff _ _).2 ⟨hactive, hroom⟩)]

/-- The sample that fills the window completes it, marked or not (R185). -/
theorem smpInBlock_complete (x : Sample) (last : Bool) {b : Block} (h : b.detFill + 1#16 = b.sps) :
    smpInBlock x last b = windowComplete (accumulate (sampleValue x) b) :=
  if_pos h

/-- A LAST mark on any other sample discards the window, that sample included (R187). -/
theorem smpInBlock_discard (x : Sample) {b : Block} (h : b.detFill + 1#16 ≠ b.sps) :
    smpInBlock x true b = discardPartial (accumulate (sampleValue x) b) :=
  if_neg h

/-- Any other sample leaves the window open. -/
theorem smpInBlock_open (x : Sample) {b : Block} (h : b.detFill + 1#16 ≠ b.sps) :
    smpInBlock x false b = accumulate (sampleValue x) b :=
  if_neg h

/-- A decided window with every field written out (R186). -/
theorem windowComplete_eq (b : Block) : windowComplete b =
    { b with
      so := b.so ++ [BitVec.ofNat 6 (argmaxLowest (accAt b) (alphabet b))]
      wincnt := b.wincnt + 1#32, events := b.events ||| 0x02#7
      acc := Vector.replicate 64 0, detFill := 0#16 } := rfl

/-- Lane by lane, what a sample adds (R185). -/
theorem getElem_accumulate_acc (x : Int) (b : Block) (k : Fin 64) :
    (accumulate x b).acc[k] =
      if k.val < alphabet b then b.acc[k] + x * wave b.tone[k] b.detFill.toNat else b.acc[k] := by
  have h := accAt_accumulate x b k.isLt
  simpa only [Fin.getElem_fin, accAt, toneAt, laneD_of_lt _ _ k.isLt] using h

/-- Settles O42. -/
theorem smpInAccumulatesAndDecides : Obligations.SmpInAccumulatesAndDecides := by
  refine fun s x last => ⟨fun hactive hroom => ?_, fun hnot => exec_waits ?_⟩
  · refine ⟨(accumulate (sampleValue x) s.blk).acc, getElem_accumulate_acc _ s.blk, fun hfull => ?_,
      fun hopen hlast => ?_, fun hopen hlast => ?_⟩
    · rw [exec_smpIn_ready x last hactive hroom, smpInBlock_complete x last hfull, windowComplete_eq]
      rfl
    · rw [hlast, exec_smpIn_ready x true hactive hroom, smpInBlock_discard x hopen, discardPartial_eq]
      rfl
    · rw [hlast, exec_smpIn_ready x false hactive hroom, smpInBlock_open x hopen]
      rfl
  · rw [enabled, ← Bool.not_eq_true, smpInReady_iff]
    rintro ⟨hactive, hroom⟩
    obtain h | h := hnot
    · simp [hactive] at h
    · omega

/-- Settles O57: a window never holds more than 65535 samples, and each adds at most one product. -/
theorem accumulatorsFitTheirRegister : Obligations.AccumulatorsFitTheirRegister := by
  intro d b hinv s _
  have hfits {a : Int} {n : Nat} (ha : |a| ≤ n * maxProduct) (hn : n ≤ 65535) :
      |a| ≤ 70365522984960 ∧ |a| < 2 ^ 47 := by
    have hle : |a| ≤ 65535 * maxProduct := ha.trans (mul_le_mul_of_nonneg_right (by omega) (by decide))
    rw [maxProduct] at hle
    omega
  have hfill := b.detFill.isLt
  obtain ⟨hstored, hstored'⟩ := hfits (hinv.accBounded s) (by omega)
  refine ⟨hstored, hstored', fun hactive x => ?_⟩
  have hopen := hinv.windowOpen hactive
  have hsps := b.sps.isLt
  have hsum := abs_accAt_accumulate_le x hinv.accBounded s
  exact hfits (n := b.detFill.toNat + 1) (by exact_mod_cast hsum) (by omega)

/-! ### SYM_OUT (R188) -/

theorem symOutWord_eq (x : BitVec 6) : symOutWord x = BitVec.ofNat 8 x.toNat := by
  rw [symOutWord, BitVec.zeroExtend, BitVec.ofNat_toNat]

theorem exec_symOut_cons {s : State} {x : BitVec 6} {rest : List (BitVec 6)} (h : s.blk.so = x :: rest) :
    exec .symOut s =
      .next { s with blk := { s.blk with so := rest }, symWords := s.symWords ++ [symOutWord x] } := by
  simp only [exec, execSymOut, h]

theorem exec_symOut_nil {s : State} (h : s.blk.so = []) : exec .symOut s = .next s := by
  simp only [exec, execSymOut, h]

/-- Settles O43. -/
theorem symOutTakesTheOldest : Obligations.SymOutTakesTheOldest := by
  refine fun s => ⟨fun x rest hso => ?_, exec_symOut_nil⟩
  rw [exec_symOut_cons hso, symOutWord_eq]

/-! ### The detector is local (R196) -/

theorem SameDetector.accumulate {b c : Block} (h : SameDetector b c) (x : Int) :
    SameDetector (accumulate x b) (accumulate x c) := by
  obtain ⟨hactive, hcfg, hacc, hfill, hso, hwin, hdrop⟩ := h
  refine ⟨hactive, hcfg, ?_, ?_, hso, hwin, hdrop⟩
  · simp only [accumulate_acc, accAt, hacc, hfill, hcfg.alphabet_eq, hcfg.toneAt_eq]
  · simp only [accumulate_detFill, hfill]

theorem SameDetector.windowComplete {b c : Block} (h : SameDetector b c) :
    SameDetector (windowComplete b) (windowComplete c) := by
  obtain ⟨hactive, hcfg, hacc, -, hso, hwin, hdrop⟩ := h
  have haccAt : accAt c = accAt b := funext fun s => by rw [accAt, accAt, hacc]
  refine ⟨hactive, hcfg, rfl, rfl, ?_, ?_, hdrop⟩
  · simp only [windowComplete_so, hso, haccAt, hcfg.alphabet_eq]
  · simp only [windowComplete_wincnt, hwin]

theorem SameDetector.discardPartial {b c : Block} (h : SameDetector b c) :
    SameDetector (discardPartial b) (discardPartial c) := by
  obtain ⟨hactive, hcfg, -, hfill, hso, hwin, hdrop⟩ := h
  refine ⟨hactive, hcfg, rfl, rfl, hso, hwin, ?_⟩
  simp only [discardPartial_dropcnt, hdrop, hfill]

/-- The case SMP_IN takes depends on what the detector sees only, and so does its effect (R185). -/
theorem SameDetector.smpInBlock {b c : Block} (h : SameDetector b c) (x : Sample) (last : Bool) :
    SameDetector (smpInBlock x last b) (smpInBlock x last c) := by
  have hacc := h.accumulate (sampleValue x)
  obtain ⟨-, ⟨-, hsps, -⟩, -, hfill, -⟩ := h.accumulate (sampleValue x)
  simp only [Machine.smpInBlock, hsps, hfill]
  split
  · exact hacc.windowComplete
  split
  · exact hacc.discardPartial
  · exact hacc

theorem SameDetector.smpInReady_eq {b c : Block} (h : SameDetector b c) (d : Config.Depths) :
    smpInReady d c = smpInReady d b := by
  obtain ⟨hactive, -, -, -, hso, -⟩ := h
  rw [smpInReady, smpInReady, hactive, hso]

/-- Settles O54. -/
theorem detectorIsLocal : Obligations.DetectorIsLocal := by
  rintro i s s' t t' hi hsame hdepths hwords hexec hexec'
  obtain ⟨x, last, rfl⟩ | rfl := hi
  · rw [exec_blk hexec, exec_blk hexec', exec_symWords hexec nofun, exec_symWords hexec' nofun, hdepths]
    refine ⟨?_, hwords⟩
    simp only [blockAfter, hsame.smpInReady_eq]
    split
    · exact hsame.smpInBlock x last
    · exact hsame
  · obtain ⟨hactive, hcfg, hacc, hfill, hso, hwin, hdrop⟩ := hsame
    cases hq : s.blk.so with
    | nil =>
      rw [exec_symOut_nil hq] at hexec
      rw [exec_symOut_nil (hso.trans hq)] at hexec'
      cases hexec
      cases hexec'
      exact ⟨⟨hactive, hcfg, hacc, hfill, hso, hwin, hdrop⟩, hwords⟩
    | cons y rest =>
      rw [exec_symOut_cons hq] at hexec
      rw [exec_symOut_cons (hso.trans hq)] at hexec'
      cases hexec
      cases hexec'
      exact ⟨⟨hactive, hcfg, hacc, hfill, rfl, hwin, hdrop⟩, by rw [hwords]⟩

/-! ### Counting samples (95_test_vectors.md, R185 to R187, R134, R135) -/

theorem SameDetector.samplesSeen_eq {b c : Block} (h : SameDetector b c) :
    samplesSeen c = samplesSeen b := by
  obtain ⟨-, ⟨-, hsps, -⟩, -, hfill, -, hwin, hdrop⟩ := h
  rw [samplesSeen, samplesSeen, hsps, hfill, hwin, hdrop]

theorem samplesSeen_accumulate (x : Int) {b : Block} (h : b.detFill.toNat < b.sps.toNat) :
    samplesSeen (accumulate x b) = samplesSeen b + 1#32 := by
  have hadvance : (b.detFill + 1#16).zeroExtend 32 = b.detFill.zeroExtend 32 + 1#32 := by
    apply BitVec.eq_of_toNat_eq
    simp
    omega
  simp only [samplesSeen, accumulate_wincnt, accumulate_sps, accumulate_dropcnt, accumulate_detFill,
    hadvance, BitVec.add_assoc]

/-- A full window's sps samples move from the fill to the count of windows (R186). -/
theorem samplesSeen_windowComplete {b : Block} (h : b.detFill = b.sps) :
    samplesSeen (windowComplete b) = samplesSeen b := by
  have hempty : (0#16).zeroExtend 32 = 0#32 := rfl
  simp only [samplesSeen, windowComplete_wincnt, windowComplete_sps, windowComplete_dropcnt,
    windowComplete_detFill, h, hempty, BitVec.add_mul, BitVec.one_mul, BitVec.add_zero]
  ac_rfl

/-- A discarded window's samples move from the fill to the count of dropped samples (R187). -/
theorem samplesSeen_discardPartial (b : Block) : samplesSeen (discardPartial b) = samplesSeen b := by
  simp [samplesSeen, BitVec.add_assoc]

theorem samplesSeen_stopBlock (b : Block) : samplesSeen (stopBlock b) = samplesSeen b := by
  simp [samplesSeen, BitVec.add_assoc]

theorem samplesSeen_flushBlock (b : Block) : samplesSeen (flushBlock b) = samplesSeen b := by
  unfold flushBlock
  split
  · exact samplesSeen_discardPartial b
  · rfl

theorem samplesSeen_smpInBlock (x : Sample) (last : Bool) {b : Block}
    (hopen : b.detFill.toNat < b.sps.toNat) :
    samplesSeen (smpInBlock x last b) = samplesSeen b + 1#32 := by
  rw [← samplesSeen_accumulate (sampleValue x) hopen]
  obtain ⟨hfull, h⟩ | ⟨-, -, h⟩ | ⟨-, -, h⟩ := smpInBlock_cases x last b <;> rw [h]
  · exact samplesSeen_windowComplete hfull
  · exact samplesSeen_discardPartial _

/-- In a session only STOP, FLUSH and the detector's own operations touch what the detector reads or owns. -/
theorem blockAfter_sameDetector (d : Config.Depths) {i : Instr} {b : Block} (hactive : b.active = true)
    (hstop : i ≠ .stop) (hflush : i ≠ .flush) (hin : ¬ ∃ x last, i = .smpIn x last) (hout : i ≠ .symOut) :
    SameDetector b (blockAfter d i b) := by
  have hlocked (addr : BitVec 9) (store : Block → Block) : SameDetector b (writeRwl addr store b) := by
    rw [writeRwl, if_pos hactive]
    exact raise_sameDetector _ _ _ b
  cases i
  case stop => exact absurd rfl hstop
  case flush => exact absurd rfl hflush
  case smpIn x last => exact absurd ⟨x, last, rfl⟩ hin
  case symOut => exact absurd rfl hout
  case start =>
    rw [blockAfter, startBlock, if_pos hactive]
    exact raise_sameDetector _ _ _ b
  case cmdIllegal w => exact raise_sameDetector _ _ _ b
  case wrCfg w => exact hlocked _ _
  case wrSps w => exact hlocked _ _
  case wrSrcRate w => exact hlocked _ _
  case wrTone k w => exact hlocked _ _
  case symIn v => exact keeps_ite (SameDetector b) (fun _ => symInBlock_sameDetector v b) (.refl b)
  case smpOut => exact keeps_ite (SameDetector b) (fun _ => smpOutBlock_sameDetector b) (.refl b)
  case synLoad => exact keeps_ite (SameDetector b) (fun _ => synLoadBlock_sameDetector b) (.refl b)
  case wrEvents w => simp [blockAfter, SameDetector, SameConfig]
  case wrIrqEn w => simp [blockAfter, SameDetector, SameConfig]
  all_goals exact .refl b

theorem samplesSeen_blockAfter (d : Config.Depths) {i : Instr} {b : Block} (hactive : b.active = true)
    (hin : ¬ ∃ x last, i = .smpIn x last) : samplesSeen (blockAfter d i b) = samplesSeen b := by
  by_cases hstop : i = .stop
  · rw [hstop]; exact samplesSeen_stopBlock b
  by_cases hflush : i = .flush
  · rw [hflush]; exact samplesSeen_flushBlock b
  by_cases hout : i = .symOut
  · rw [hout]; rfl
  exact (blockAfter_sameDetector d hactive hstop hflush hin hout).samplesSeen_eq

/-- Settles O58. -/
theorem acceptedSamplesAreCounted : Obligations.AcceptedSamplesAreCounted := by
  rintro i s t ⟨-, hinv⟩ hactive hexec
  rw [exec_blk hexec]
  by_cases hin : ∃ x last, i = .smpIn x last
  · obtain ⟨x, last, rfl⟩ := hin
    have hready := smpInReady_iff s.depths s.blk
    by_cases hroom : s.blk.so.length < s.depths.dSo
    · rw [blockAfter, if_pos (hready.2 ⟨hactive, hroom⟩), if_pos ⟨⟨x, last, rfl⟩, hroom⟩]
      exact samplesSeen_smpInBlock x last (hinv.windowOpen hactive)
    · rw [blockAfter, if_neg fun h => hroom (hready.1 h).2, if_neg fun h => hroom h.2, BitVec.add_zero]
  · rw [samplesSeen_blockAfter _ hactive hin, if_neg fun h => hin h.1, BitVec.add_zero]

/-! ### An open window (R181, R185) -/

/-- The block `b`, at a window boundary, once the samples `w` have been accepted. -/
def openWindow (b : Block) (w : List Int) : Block :=
  { b with
    acc := accOf fun s => if s < alphabet b then corr w (toneAt b s) else 0
    detFill := BitVec.ofNat 16 w.length }

/-- The block `b`, at a window boundary, once a whole window `w` has been decided (R186). -/
def decideWindow (b : Block) (w : List Int) : Block :=
  { b with
    so := b.so ++ [BitVec.ofNat 6 (windowSymbol b w)]
    wincnt := b.wincnt + 1#32, events := b.events ||| 0x02#7 }

/-- The block `b`, at a window boundary, once a partial window of `r` samples has been discarded (R187). -/
def dropWindow (b : Block) (r : Nat) : Block :=
  { b with dropcnt := b.dropcnt + BitVec.ofNat 32 r, events := b.events ||| 0x04#7 }

/-- A session with a legal alphabet, its detector at a window boundary (R186, R187). -/
structure AtBoundary (b : Block) : Prop where
  active : b.active = true
  bpsLegal : b.bps.toNat ≤ 6
  empty : b.detFill = 0#16
  cleared : b.acc = Vector.replicate 64 0

theorem length_so_decideWindow (b : Block) (w : List Int) :
    (decideWindow b w).so.length = b.so.length + 1 :=
  List.length_append

theorem AtBoundary.decideWindow {b : Block} (h : AtBoundary b) (w : List Int) :
    AtBoundary (decideWindow b w) :=
  ⟨h.active, h.bpsLegal, h.empty, h.cleared⟩

@[simp] theorem toneAt_openWindow (b : Block) (w : List Int) (s : Nat) :
    toneAt (openWindow b w) s = toneAt b s := rfl

@[simp] theorem alphabet_openWindow (b : Block) (w : List Int) : alphabet (openWindow b w) = alphabet b := rfl

theorem openWindow_detFill_toNat (b : Block) {w : List Int} (hw : w.length < 2 ^ 16) :
    (openWindow b w).detFill.toNat = w.length :=
  Nat.mod_eq_of_lt hw

/-- The lanes of an open window hold its exact correlations so far (R181). -/
theorem accAt_openWindow (b : Block) (w : List Int) {s : Nat} (hs : s < 64) :
    accAt (openWindow b w) s = if s < alphabet b then corr w (toneAt b s) else 0 := by
  rw [accAt, openWindow, laneD_accOf, if_pos hs]

theorem AtBoundary.openWindow_nil {b : Block} (h : AtBoundary b) : openWindow b [] = b := by
  have hacc : (openWindow b []).acc = b.acc := by
    refine lanes_ext 0 fun s _ => ?_
    rw [h.cleared, ← accZero, laneD_accZero]
    simp [openWindow, laneD_accOf]
  have hfill : (openWindow b []).detFill = b.detFill := h.empty.symm
  calc openWindow b [] = { b with acc := (openWindow b []).acc, detFill := (openWindow b []).detFill } := rfl
    _ = b := by rw [hacc, hfill]

/-- One more sample makes the open window one sample longer. -/
theorem accumulate_openWindow (b : Block) {w : List Int} (x : Int) (hw : w.length < 2 ^ 16) :
    accumulate x (openWindow b w) = openWindow b (w ++ [x]) := by
  have hacc : (accumulate x (openWindow b w)).acc = (openWindow b (w ++ [x])).acc := by
    refine lanes_ext 0 fun s hs => ?_
    change accAt (accumulate x (openWindow b w)) s = accAt (openWindow b (w ++ [x])) s
    rw [accAt_accumulate _ _ hs, accAt_openWindow _ _ hs, accAt_openWindow _ _ hs,
      openWindow_detFill_toNat b hw, corr_concat]
    by_cases hlane : s < alphabet b <;> simp [hlane]
  have hfill : (accumulate x (openWindow b w)).detFill = (openWindow b (w ++ [x])).detFill := by
    simp [openWindow, BitVec.ofNat_add]
  calc accumulate x (openWindow b w)
    _ = { b with
          acc := (accumulate x (openWindow b w)).acc
          detFill := (accumulate x (openWindow b w)).detFill } := rfl
    _ = openWindow b (w ++ [x]) := by rw [hacc, hfill]; rfl

/-- Completing an open window decides by its exact correlations (R182, R186). -/
theorem AtBoundary.windowComplete_openWindow {b : Block} (h : AtBoundary b) (w : List Int) :
    windowComplete (openWindow b w) = Machine.decideWindow b w := by
  have hdecided : argmaxLowest (accAt (openWindow b w)) (alphabet b) = windowSymbol b w :=
    argmaxLowest_congr (alphabet_pos b) fun s hs => by
      rw [accAt_openWindow b w (hs.trans_le (alphabet_le b h.bpsLegal)), if_pos hs]
  calc windowComplete (openWindow b w)
    _ = { b with
          so := b.so ++ [BitVec.ofNat 6 (argmaxLowest (accAt (openWindow b w)) (alphabet b))]
          wincnt := b.wincnt + 1#32, events := b.events ||| 0x02#7
          acc := Vector.replicate 64 0, detFill := 0#16 } := rfl
    _ = Machine.decideWindow b w := by rw [hdecided, ← h.cleared, ← h.empty]; rfl

theorem AtBoundary.discardPartial_openWindow {b : Block} (h : AtBoundary b) {w : List Int}
    (hw : w.length < 2 ^ 16) : discardPartial (openWindow b w) = dropWindow b w.length := by
  rw [discardPartial_eq, openWindow_detFill_toNat b hw, ← h.cleared, ← h.empty]
  rfl

/-! ### Runs of samples (R185 to R187, R191) -/

/-- A sample of a stream that is not its last. -/
def unmarked (x : Sample) : Instr := .smpIn x false

theorem length_values (xs : List Sample) : (values xs).length = xs.length := List.length_map _

theorem values_concat (xs : List Sample) (x : Sample) : values (xs ++ [x]) = values xs ++ [sampleValue x] :=
  List.map_append

section
variable {s : State} (hb : AtBoundary s.blk) (hroom : s.blk.so.length < s.depths.dSo)
include hb hroom

/-- A sample before the window's last one is added to the open window. -/
theorem exec_unmarked_openWindow {w : List Int} (x : Sample) (hw : w.length + 1 < s.blk.sps.toNat) :
    exec (unmarked x) { s with blk := openWindow s.blk w } =
      .next { s with blk := openWindow s.blk (w ++ [sampleValue x]) } := by
  have hopen : (openWindow s.blk w).detFill + 1#16 ≠ (openWindow s.blk w).sps := by
    simp only [openWindow]
    bv_omega
  have hblk : smpInBlock x false (openWindow s.blk w) = openWindow s.blk (w ++ [sampleValue x]) := by
    rw [smpInBlock_open x hopen, accumulate_openWindow _ _ (by omega)]
  rw [← hblk]
  exact exec_smpIn_ready x false hb.active hroom

theorem execAll_unmarked_openWindow (xs : List Sample) {w : List Int}
    (hw : w.length + xs.length < s.blk.sps.toNat) :
    execAll (xs.map unmarked) { s with blk := openWindow s.blk w } =
      .next { s with blk := openWindow s.blk (w ++ values xs) } := by
  induction xs generalizing w with
  | nil => simp [execAll, values]
  | cons x xs ih =>
    rw [List.length_cons] at hw
    have hnext : (w ++ [sampleValue x]).length + xs.length < s.blk.sps.toNat := by
      rw [List.length_append, List.length_singleton]
      omega
    rw [List.map_cons, execAll_cons _ (exec_unmarked_openWindow hb hroom x (by omega)), ih hnext,
      List.append_assoc]
    rfl

/-- From a window boundary, fewer than sps samples open a window. -/
theorem execAll_unmarked (xs : List Sample) (hxs : xs.length < s.blk.sps.toNat) :
    execAll (xs.map unmarked) s = .next { s with blk := openWindow s.blk (values xs) } := by
  have h := execAll_unmarked_openWindow hb hroom xs (w := []) (by simpa using hxs)
  rwa [hb.openWindow_nil] at h

/-- One sample after an open window that began at the boundary `s`, by what SMP_IN makes of it. -/
theorem execAll_unmarked_concat (xs : List Sample) (x : Sample) (last : Bool)
    (hxs : xs.length < s.blk.sps.toNat) :
    execAll (xs.map unmarked ++ [.smpIn x last]) s =
      .next { s with blk := smpInBlock x last (openWindow s.blk (values xs)) } := by
  rw [execAll_append (execAll_unmarked hb hroom xs hxs)]
  exact execAll_cons [] (exec_smpIn_ready x last hb.active hroom)

theorem execAll_wholeWindow (xs : List Sample) (x : Sample) (last : Bool)
    (hxs : xs.length + 1 = s.blk.sps.toNat) :
    execAll (xs.map unmarked ++ [.smpIn x last]) s =
      .next { s with blk := decideWindow s.blk (values (xs ++ [x])) } := by
  have hlen := length_values xs
  have hfull : (openWindow s.blk (values xs)).detFill + 1#16 = (openWindow s.blk (values xs)).sps := by
    simp only [openWindow, hlen]
    bv_omega
  rw [execAll_unmarked_concat hb hroom xs x last (by omega), smpInBlock_complete x last hfull,
    accumulate_openWindow _ _ (by omega), hb.windowComplete_openWindow, values_concat]

/-- A LAST mark before the window is full drops the samples since the boundary. -/
theorem execAll_partialWindow (xs : List Sample) (x : Sample)
    (hxs : xs.length + 1 < s.blk.sps.toNat) :
    execAll (xs.map unmarked ++ [.smpIn x true]) s =
      .next { s with blk := dropWindow s.blk (xs.length + 1) } := by
  have hlen := length_values xs
  have hlen' : (values (xs ++ [x])).length = xs.length + 1 := by
    rw [length_values, List.length_append, List.length_singleton]
  have hopen : (openWindow s.blk (values xs)).detFill + 1#16 ≠ (openWindow s.blk (values xs)).sps := by
    simp only [openWindow, hlen]
    bv_omega
  rw [execAll_unmarked_concat hb hroom xs x true (by omega), smpInBlock_discard x hopen,
    accumulate_openWindow _ _ (by omega), ← values_concat, hb.discardPartial_openWindow (by omega), hlen']

/-- A whole window without a LAST mark. -/
theorem execAll_unmarked_window {xs : List Sample} (hxs : xs.length = s.blk.sps.toNat)
    (hsps : 1 ≤ s.blk.sps.toNat) :
    execAll (xs.map unmarked) s = .next { s with blk := decideWindow s.blk (values xs) } := by
  obtain rfl | ⟨ys, y, rfl⟩ := List.eq_nil_or_concat' xs
  · rw [List.length_nil] at hxs
    omega
  · rw [List.length_append, List.length_singleton] at hxs
    rw [List.map_append]
    exact execAll_wholeWindow hb hroom ys y false hxs

end

/-- Settles O44. -/
theorem wholeWindowIsDecided : Obligations.WholeWindowIsDecided :=
  fun _ xs x last hactive hbps hfill hacc hroom hxs =>
    execAll_wholeWindow ⟨hactive, hbps, hfill, hacc⟩ hroom xs x last hxs

/-! ### Streams of windows (R189, R191) -/

theorem markedStream_concat (xs : List Sample) (x : Sample) :
    markedStream (xs ++ [x]) = xs.map unmarked ++ [.smpIn x true] := by
  have hbefore : xs.zipIdx.map (fun p => Instr.smpIn p.1 (decide (p.2 = xs.length))) = xs.map unmarked := by
    conv_rhs => rw [← List.zipIdx_map_fst 0 xs, List.map_map]
    refine List.map_congr_left fun p hp => ?_
    have hindex : p.2 ≠ xs.length := (List.snd_lt_of_mem_zipIdx hp).ne
    simp [unmarked, hindex]
  simp [markedStream, List.zipIdx_append, hbefore]

theorem markedStream_append (xs : List Sample) {ys : List Sample} (hys : ys ≠ []) :
    markedStream (xs ++ ys) = xs.map unmarked ++ markedStream ys := by
  obtain ⟨zs, z, rfl⟩ := (List.eq_nil_or_concat' ys).resolve_left hys
  rw [← List.append_assoc, markedStream_concat, markedStream_concat, List.map_append, List.append_assoc]

/-- The symbols of the first `k` windows of a stream (R189). -/
def streamSymbols (b : Block) (xs : List Sample) (k : Nat) : List (BitVec 6) :=
  (List.range k).map fun j => BitVec.ofNat 6 (windowSymbol b (windowAt xs b.sps.toNat j))

theorem streamSymbols_succ (b : Block) (xs : List Sample) (k : Nat) :
    streamSymbols b xs (k + 1) =
      BitVec.ofNat 6 (windowSymbol b (values (xs.take b.sps.toNat))) ::
        streamSymbols b (xs.drop b.sps.toNat) k := by
  have hnext (j : Nat) :
      windowAt xs b.sps.toNat (j + 1) = windowAt (xs.drop b.sps.toNat) b.sps.toNat j := by
    rw [windowAt, windowAt, List.drop_drop, Nat.succ_mul, Nat.add_comm]
  have hfirst : windowAt xs b.sps.toNat 0 = values (xs.take b.sps.toNat) := by simp [windowAt]
  simp [streamSymbols, List.range_succ_eq_map, hnext, hfirst]

/-- What R191 says a marked stream of `k` windows and `r` samples makes of the block `b`. -/
structure StreamDecided (b : Block) (xs : List Sample) (k r : Nat) (c : Block) : Prop where
  so : c.so = b.so ++ streamSymbols b xs k
  dropcnt : c.dropcnt = b.dropcnt + BitVec.ofNat 32 r
  detFill : c.detFill = 0#16
  wincnt : c.wincnt = b.wincnt + BitVec.ofNat 32 k

theorem StreamDecided.tail {b : Block} (h : AtBoundary b) (xs : List Sample) (r : Nat) :
    StreamDecided b xs 0 r (dropWindow b r) :=
  ⟨by simp [streamSymbols, dropWindow], rfl, h.empty, by simp [dropWindow]⟩

theorem StreamDecided.lastWindow {b : Block} (h : AtBoundary b) {xs : List Sample}
    (hxs : xs.length = b.sps.toNat) : StreamDecided b xs 1 0 (decideWindow b (values xs)) := by
  have htake : xs.take b.sps.toNat = xs := List.take_of_length_le hxs.le
  refine ⟨?_, by simp [decideWindow], h.empty, rfl⟩
  rw [streamSymbols_succ, htake]
  rfl

theorem StreamDecided.cons {b c : Block} {xs : List Sample} {k r : Nat}
    (h : StreamDecided (decideWindow b (values (xs.take b.sps.toNat))) (xs.drop b.sps.toNat) k r c) :
    StreamDecided b xs (k + 1) r c := by
  obtain ⟨hso, hdrop, hfill, hwin⟩ := h
  refine ⟨?_, hdrop, hfill, ?_⟩
  · rw [hso, streamSymbols_succ, ← List.singleton_append, ← List.append_assoc]
    rfl
  · rw [hwin, BitVec.ofNat_add, BitVec.add_comm (BitVec.ofNat 32 k), ← BitVec.add_assoc]
    rfl

/-- Window by window: the tail alone, the last whole window, or one window before the rest of the stream. -/
theorem execAll_markedStream (k : Nat) {s : State} {xs : List Sample} {r : Nat} (hb : AtBoundary s.blk)
    (hne : 1 ≤ xs.length) (hr : r < s.blk.sps.toNat) (hxs : xs.length = k * s.blk.sps.toNat + r)
    (hroom : s.blk.so.length + k < s.depths.dSo ∨ r = 0 ∧ s.blk.so.length + k = s.depths.dSo) :
    ∃ t, execAll (markedStream xs) s = .next t ∧ StreamDecided s.blk xs k r t.blk := by
  induction k generalizing s xs with
  | zero =>
    obtain ⟨ys, y, rfl⟩ := (List.eq_nil_or_concat' xs).resolve_left (List.ne_nil_of_length_pos hne)
    rw [List.length_append, List.length_singleton] at hxs
    obtain rfl : ys.length + 1 = r := by omega
    rw [markedStream_concat]
    exact ⟨_, execAll_partialWindow hb (by omega) ys y hr, .tail hb _ _⟩
  | succ k ih =>
    have hplace : s.blk.so.length < s.depths.dSo := by omega
    rw [Nat.succ_mul] at hxs
    by_cases hone : xs.length = s.blk.sps.toNat
    · obtain ⟨ys, y, rfl⟩ := (List.eq_nil_or_concat' xs).resolve_left (List.ne_nil_of_length_pos hne)
      obtain rfl : r = 0 := by omega
      obtain rfl : k = 0 := by
        have : k * s.blk.sps.toNat = 0 := by omega
        exact (Nat.mul_eq_zero.1 this).resolve_right (by omega)
      rw [markedStream_concat]
      exact ⟨_, execAll_wholeWindow hb hplace ys y true (by simpa using hone), .lastWindow hb hone⟩
    · have hfull : (xs.take s.blk.sps.toNat).length = s.blk.sps.toNat := List.length_take_of_le (by omega)
      have hmore : xs.drop s.blk.sps.toNat ≠ [] := List.drop_eq_nil_iff.not.2 (by omega)
      have hfirst := execAll_unmarked_window hb hplace hfull (by omega)
      have hrest : (xs.drop s.blk.sps.toNat).length = k * s.blk.sps.toNat + r := by
        rw [List.length_drop]
        omega
      have hlater := length_so_decideWindow s.blk (values (xs.take s.blk.sps.toNat))
      obtain ⟨t, hrun, hdecided⟩ :=
        ih (s := { s with blk := decideWindow s.blk (values (xs.take s.blk.sps.toNat)) })
          (hb.decideWindow _) (List.length_pos_iff.2 hmore) hr hrest (by dsimp only; omega)
      refine ⟨t, ?_, hdecided.cons⟩
      rw [← List.take_append_drop s.blk.sps.toNat xs, markedStream_append _ hmore, execAll_append hfirst]
      exact hrun

/-- Settles O45. -/
theorem partialTailIsDropped : Obligations.PartialTailIsDropped := by
  intro s xs k r hactive hbps hfill hacc hne hr hxs hroom
  obtain ⟨t, hrun, hso, hdrop, hempty, hwin⟩ :=
    execAll_markedStream k ⟨hactive, hbps, hfill, hacc⟩ hne hr hxs hroom
  exact ⟨t, hrun, hso, hdrop, hempty, hwin⟩

/-! ### Through the synthesizer and back (R163, R195) -/

/-- R150: a reference value fits the 16 bits of a sample. -/
theorem sampleValue_smpOutWord (ftw : Word) (n : Nat) (last : Bool) :
    sampleValue ((smpOutWord (wave ftw n) last).extractLsb' 0 16) = wave ftw n := by
  have hfits := abs_le.1 (abs_sineRom_le (phase ftw n / 2 ^ 20))
  rw [← wave] at hfits
  rw [smpOutWord, BitVec.extractLsb'_append_eq_right, sampleValue,
    BitVec.toInt_ofInt_eq_self (by decide) (by omega) (by omega)]

/-- The samples in the words of a whole tone are the tone. -/
theorem values_toneWords (ftw : Word) (sps : Nat) :
    values ((toneWords ftw sps).map fun w => w.extractLsb' 0 16) = toneWave ftw sps := by
  rw [values, toneWords, List.map_map, List.map_map, toneWave]
  exact List.map_congr_left fun n _ => sampleValue_smpOutWord ftw n _

theorem SameConfig.windowSymbol_eq {b c : Block} (h : SameConfig b c) (w : List Int) :
    windowSymbol c w = windowSymbol b w := by
  simp only [windowSymbol, h.alphabet_eq, h.toneAt_eq]

/-- An in-range symbol given to an idle synthesizer comes out as its whole tone, and the detector does not
notice (R163, R165). -/
theorem execAll_sendSymbol {s : State} {v : Byte} (hinv : s.Inv) (hactive : s.blk.active = true)
    (hhalt : s.blk.synHalt = false) (hbusy : s.blk.synBusy = false) (hsi : s.blk.si = [])
    (hv : v.toNat < alphabet s.blk) :
    ∃ t, execAll ([.symIn v, .synLoad] ++ List.replicate s.blk.sps.toNat .smpOut) s = .next t ∧
      t.smpWords = s.smpWords ++ toneWords (toneAt s.blk v.toNat) s.blk.sps.toNat ∧
      SameDetector s.blk t.blk ∧ t.depths = s.depths := by
  obtain ⟨⟨⟨hdepth, -⟩, -⟩, hblk⟩ := hinv
  obtain ⟨⟨-, hbps⟩, hsps, -⟩ := hblk.configured hactive
  have hsym : (BitVec.ofNat 6 v.toNat).toNat = v.toNat := by
    have := alphabet_le s.blk hbps
    rw [BitVec.toNat_ofNat, Nat.mod_eq_of_lt (by omega)]
  have hqueued : (symInBlock v s.blk).si = [v] := by simp [hsi]
  have hin := exec_symIn_ready v ((symInReady_iff _ _).2 ⟨hactive, hhalt, by rwa [hsi]⟩)
  have hload := exec_synLoad_enabled (s := { s with blk := symInBlock v s.blk })
    ((synLoadEnabled_iff _).2 ⟨hactive, hhalt, hbusy, by simp⟩)
  rw [synLoadBlock_inRange hqueued hv] at hload
  have htone := wholeToneIsEmitted { s with blk := { symInBlock v s.blk with
    si := [], synSym := BitVec.ofNat 6 v.toNat, synN := 0#16, synBusy := true } } hactive rfl rfl hsps
  refine ⟨_, (execAll_cons _ hin).trans ((execAll_cons _ hload).trans htone), ?_,
    ⟨rfl, ⟨rfl, rfl, rfl, rfl⟩, rfl, rfl, rfl, rfl, rfl⟩, rfl⟩
  change s.smpWords ++ toneWords (toneAt s.blk (BitVec.ofNat 6 v.toNat).toNat) _ = _
  rw [hsym]
  rfl

/-- Settles O49: what comes out of the synthesizer is the symbol's tone (`execAll_sendSymbol`), and a
Distinguishable table decodes it (R195). -/
theorem loopBackReturnsTheSymbol : Obligations.LoopBackReturnsTheSymbol := by
  intro s v hinv hactive hhalt hbusy hsi hfill hroom hv hdist
  obtain ⟨t, hsend, hwords, hsame, hdepths⟩ := execAll_sendSymbol hinv hactive hhalt hbusy hsi hv
  obtain ⟨-, hblk⟩ := hinv
  obtain ⟨⟨-, hbps⟩, hsps, -⟩ := hblk.configured hactive
  obtain ⟨hactive', hcfg, hacc', hfill', hso', -, -⟩ := hsame
  have hsymbol := hcfg.windowSymbol_eq (toneWave (toneAt s.blk v.toNat) s.blk.sps.toNat)
  rw [(distinguishableIffTonesDecode s.blk).2 hdist v.toNat hv] at hsymbol
  obtain ⟨hbps', hsps', -⟩ := hcfg
  have hboundary : AtBoundary t.blk := by
    refine ⟨hactive'.trans hactive, ?_, hfill'.trans hfill, hacc'.trans (hblk.acc_eq_accZero hfill)⟩
    rwa [hbps']
  have hdetect := execAll_unmarked_window hboundary (by rwa [hso', hdepths])
    (xs := (toneWords (toneAt s.blk v.toNat) s.blk.sps.toNat).map fun w => w.extractLsb' 0 16)
    (by simp [hsps']) (by rwa [hsps'])
  rw [values_toneWords, List.map_map] at hdetect
  refine ⟨t, _, _, hsend, hwords, length_toneWords _ _, hdetect, ?_, hboundary.empty⟩
  simp only [decideWindow, hsymbol, hso']

end Sys2Proof.Machine

/-! ## The host reference (44_host_reference.md) -/

namespace Sys2Proof.Machine

open Sys2Proof

/-! ### The frame codec (R210 to R212) -/

/-- The two bytes of the frame header, read big-endian, are the length they were written from (R211, R212). -/
theorem headerBytes_value {n : Nat} (h : n ≤ 65535) :
    (BitVec.ofNat 8 (n / 256)).toNat * 256 + (BitVec.ofNat 8 (n % 256)).toNat = n := by
  rw [BitVec.toNat_ofNat, BitVec.toNat_ofNat]
  omega

/-- Where the body starts with as many bytes as the header says, decode_frame answers these and the rest. -/
theorem decodeFrame_append {hi lo : Byte} {metadata : List Byte} (payload : List Byte)
    (h : hi.toNat * 256 + lo.toNat = metadata.length) :
    decodeFrame (hi :: lo :: (metadata ++ payload)) = .ok (metadata, payload) := by
  simp [decodeFrame, h]

/-- Settles O59: the header gives the length of the metadata back (`headerBytes_value`), and there the body
is cut (`decodeFrame_append`). -/
theorem frameRoundTrip : Obligations.FrameRoundTrip := by
  intro metadata payload
  refine ⟨fun hfits => ?_, fun hlarge => if_pos hlarge⟩
  refine ⟨_, if_neg (Nat.not_lt.2 hfits), ?_, decodeFrame_append payload (headerBytes_value hfits)⟩
  simp only [List.length_cons, List.length_append]
  omega

/-! ### Bits and values (R213 to R215) -/

/-- The low `k` bits of a number, most significant first: what R213 makes of a byte (`bytesToBits_eq`) and
R215 of a symbol (`symbolsToBits_eq`). -/
def bitsOf (k n : Nat) : List Bool := (List.range k).map fun i => n.testBit (k - 1 - i)

@[simp] theorem length_bitsOf (k n : Nat) : (bitsOf k n).length = k := by simp [bitsOf]

theorem symbolsToBits_eq (symbols : List Nat) (k : Nat) :
    symbolsToBits symbols k = symbols.flatMap (bitsOf k) := rfl

theorem bytesToBits_eq (data : List Byte) : bytesToBits data = data.flatMap fun b => bitsOf 8 b.toNat := rfl

theorem length_bytesToBits (data : List Byte) : (bytesToBits data).length = 8 * data.length := by
  simp [bytesToBits_eq, List.length_flatMap, Nat.mul_comm]

theorem bitsOf_succ (k n : Nat) : bitsOf (k + 1) n = bitsOf k (n / 2) ++ [n.testBit 0] := by
  have hshift : ∀ i ∈ List.range k, n.testBit (k + 1 - 1 - i) = (n / 2).testBit (k - 1 - i) := by
    intro i hi
    have hlt := List.mem_range.1 hi
    rw [← Nat.testBit_succ]
    congr 1
    omega
  rw [bitsOf, List.range_succ, List.map_append, List.map_congr_left hshift]
  simp [bitsOf]

theorem bitsValue_concat (group : List Bool) (bit : Bool) :
    bitsValue (group ++ [bit]) = 2 * bitsValue group + bit.toNat := by
  simp [bitsValue]

theorem bitsValue_lt (group : List Bool) : bitsValue group < 2 ^ group.length := by
  induction group using List.reverseRecOn with
  | nil => decide
  | append_singleton group bit ih =>
    have hbit := Bool.toNat_lt bit
    rw [bitsValue_concat, List.length_append, List.length_singleton, Nat.pow_succ]
    omega

theorem bitsValue_replicate_false (k : Nat) : bitsValue (List.replicate k false) = 0 := by
  induction k with
  | zero => rfl
  | succ k ih => rw [List.replicate_succ', bitsValue_concat, ih]; rfl

/-- R214 undoes R213. -/
theorem bitsValue_bitsOf (k n : Nat) : bitsValue (bitsOf k n) = n % 2 ^ k := by
  induction k generalizing n with
  | zero => simp [bitsOf, bitsValue, Nat.mod_one]
  | succ k ih =>
    rw [bitsOf_succ, bitsValue_concat, ih, Nat.toNat_testBit, Nat.pow_succ', Nat.mod_mul]
    omega

/-- R215 undoes R214. -/
theorem bitsOf_bitsValue (group : List Bool) : bitsOf group.length (bitsValue group) = group := by
  induction group using List.reverseRecOn with
  | nil => rfl
  | append_singleton group bit ih =>
    have hhalf : (2 * bitsValue group + bit.toNat) / 2 = bitsValue group := by
      have hbit := Bool.toNat_lt bit
      omega
    have hlow : (2 * bitsValue group + bit.toNat).testBit 0 = bit := by
      cases bit <;> simp [Nat.testBit_zero]
    rw [List.length_append, List.length_singleton, bitsOf_succ, bitsValue_concat, hhalf, hlow, ih]

/-! ### Groups of bits (R214, R216) -/

theorem length_of_mem_groupsOf {k : Nat} {bits group : List Bool} (h : group ∈ groupsOf k bits) :
    group.length = k := by
  obtain ⟨i, -, rfl⟩ := List.mem_map.1 h
  simp only [List.length_append, List.length_take, List.length_replicate]
  omega

theorem groupsOf_nil {k : Nat} (hk : 0 < k) : groupsOf k [] = [] := by
  simp [groupsOf, Nat.div_eq_of_lt (Nat.sub_lt hk Nat.one_pos)]

/-- Bits that fill one group, or less, are that group. -/
theorem groupsOf_of_length_le {k : Nat} {bits : List Bool} (h0 : 0 < bits.length) (hle : bits.length ≤ k) :
    groupsOf k bits = [bits ++ List.replicate (k - bits.length) false] := by
  have hone : (bits.length + k - 1) / k = 1 := Nat.div_eq_of_lt_le (by omega) (by omega)
  simp [groupsOf, hone, List.take_of_length_le hle, Nat.min_eq_right hle]

/-- A full group in front is the first one. -/
theorem groupsOf_append {k : Nat} (hk : 0 < k) {group : List Bool} (hgroup : group.length = k)
    (bits : List Bool) : groupsOf k (group ++ bits) = group :: groupsOf k bits := by
  have hcount : ((group ++ bits).length + k - 1) / k = (bits.length + k - 1) / k + 1 := by
    rw [← Nat.add_div_right _ hk, List.length_append]
    congr 1
    omega
  have hdrop : ∀ i, (group ++ bits).drop (k * (i + 1)) = bits.drop (k * i) := by
    intro i
    rw [Nat.mul_succ, Nat.add_comm, ← List.drop_drop, List.drop_left' hgroup]
  rw [groupsOf, hcount, List.range_succ_eq_map, List.map_cons, List.map_map]
  simp [groupsOf, Function.comp_def, hdrop, List.take_left' hgroup, hgroup, -List.length_take]

/-- The zero bits that fill the last group of `k` (R214). -/
def padding (k : Nat) (bits : List Bool) : List Bool :=
  List.replicate ((k - bits.length % k) % k) false

theorem padding_append {k : Nat} {group : List Bool} (hgroup : group.length = k) (bits : List Bool) :
    padding k (group ++ bits) = padding k bits := by
  rw [padding, padding, List.length_append, hgroup, Nat.add_mod_left]

/-- The groups in a row are the bits and the padding. -/
theorem flatten_groupsOf {k : Nat} (hk : 0 < k) (bits : List Bool) :
    (groupsOf k bits).flatten = bits ++ padding k bits := by
  induction hlen : bits.length using Nat.strong_induction_on generalizing bits with
  | _ n ih =>
    subst hlen
    rcases Nat.eq_zero_or_pos bits.length with hzero | hpos
    · rw [List.eq_nil_of_length_eq_zero hzero, groupsOf_nil hk]
      simp [padding]
    rcases Nat.lt_or_ge bits.length k with hlt | hge
    · rw [groupsOf_of_length_le hpos hlt.le, padding, Nat.mod_eq_of_lt hlt, Nat.mod_eq_of_lt (by omega)]
      simp
    · have hgroup : (bits.take k).length = k := List.length_take_of_le hge
      have hrest := ih (bits.drop k).length (by rw [List.length_drop]; omega) _ rfl
      rw [← List.take_append_drop k bits, groupsOf_append hk hgroup, List.flatten_cons, hrest,
        padding_append hgroup, List.append_assoc]

/-! ### Packing and unpacking (R213 to R216, R219) -/

theorem bitsToSymbols_lt {bits : List Bool} {k v : Nat} (h : v ∈ bitsToSymbols bits k) : v < 2 ^ k := by
  obtain ⟨group, hgroup, rfl⟩ := List.mem_map.1 h
  exact length_of_mem_groupsOf hgroup ▸ bitsValue_lt group

/-- R214 and R215: the symbols give the bits back, and the padding. -/
theorem symbolsToBits_bitsToSymbols {k : Nat} (hk : 0 < k) (bits : List Bool) :
    symbolsToBits (bitsToSymbols bits k) k = bits ++ padding k bits := by
  have hgroup : ∀ group ∈ groupsOf k bits, bitsOf k (bitsValue group) = group := fun group h => by
    conv_lhs => rw [← length_of_mem_groupsOf h]
    exact bitsOf_bitsValue group
  calc symbolsToBits (bitsToSymbols bits k) k
      = ((groupsOf k bits).map fun group => bitsOf k (bitsValue group)).flatten := by
        rw [symbolsToBits_eq, bitsToSymbols, List.flatMap_def, List.map_map]
        rfl
    _ = (groupsOf k bits).flatten := by rw [List.map_congr_left hgroup, List.map_id']
    _ = bits ++ padding k bits := flatten_groupsOf hk bits

/-- R213 and R216: the bits of whole bytes give these bytes back, whatever follows. -/
theorem bitsToBytes_bytesToBits_append (data : List Byte) (rest : List Bool) :
    bitsToBytes (bytesToBits data ++ rest) = data ++ bitsToBytes rest := by
  induction data with
  | nil => rfl
  | cons b data ih =>
    have hbyte : BitVec.ofNat 8 (bitsValue (bitsOf 8 b.toNat)) = b := by
      rw [bitsValue_bitsOf, Nat.mod_eq_of_lt b.isLt, BitVec.ofNat_toNat, BitVec.setWidth_eq]
    rw [bytesToBits_eq, List.flatMap_cons, ← bytesToBits_eq, List.append_assoc, bitsToBytes,
      groupsOf_append (by decide) (length_bitsOf 8 _), List.map_cons, hbyte, List.cons_append, ← ih,
      bitsToBytes]

/-- R216: zero bits that fill no more than a byte make one 0x00 byte, and no bits make none. -/
theorem bitsToBytes_replicate_false {n : Nat} (hn : n ≤ 8) :
    bitsToBytes (List.replicate n false) = if n = 0 then [] else [0x00#8] := by
  split
  case isTrue h => rw [h, List.replicate_zero, bitsToBytes, groupsOf_nil (by decide), List.map_nil]
  case isFalse h =>
    rw [bitsToBytes, groupsOf_of_length_le (by rw [List.length_replicate]; omega) (by simpa using hn),
      List.replicate_append_replicate, List.map_singleton, bitsValue_replicate_false]

/-- Settles O60: the symbols give the bits and the padding back (`symbolsToBits_bitsToSymbols`), and the
padding, fewer than `k` bits, is empty or becomes one byte (R219). -/
theorem packingAddsOneZeroByte : Obligations.PackingAddsOneZeroByte := by
  intro data k hpos hle
  refine ⟨fun v => bitsToSymbols_lt, ?_⟩
  have hrem : 8 * data.length % k < k := Nat.mod_lt _ hpos
  have hpad : (k - 8 * data.length % k) % k = 0 ↔ 8 * data.length % k = 0 := by
    rcases Nat.eq_zero_or_pos (8 * data.length % k) with hzero | hrest
    · rw [hzero, Nat.sub_zero, Nat.mod_self]
    · rw [Nat.mod_eq_of_lt (by omega)]
      omega
  have hshort : (k - 8 * data.length % k) % k ≤ 8 := by
    have := Nat.mod_lt (k - 8 * data.length % k) hpos
    omega
  rw [symbolsToBits_bitsToSymbols hpos, bitsToBytes_bytesToBits_append, padding, length_bytesToBits,
    bitsToBytes_replicate_false hshort]
  simp only [hpad]

end Sys2Proof.Machine

/-! ## Steps and their errors (60_exceptions.md) -/

namespace Sys2Proof.Machine

open Sys2Proof

/-! ### Every step answers (R232, R240) -/

theorem step_next (s : State) : ∃ t, step s = .next t := by
  obtain ⟨o, rest, -, -, hs⟩ | hs := step_cases s <;> rw [hs]
  · obtain ⟨t, ht, -⟩ := exec_next (decode o) { s with agenda := rest }
    exact ⟨t, ht⟩
  · obtain ⟨t, ht, -⟩ := exec_next .synLoad s
    exact ⟨t, ht⟩

/-! ### The FIFO depths change no value (R6, D16) -/

/-- Only SYM_IN and SMP_IN ask for a place in a FIFO; where both depths leave one, each pushes the same, and no
other operation reads the depths. -/
theorem exec_withDepths {i : Instr} {s : State} {d : Config.Depths}
    (henabled : enabled s.depths s.blk i = true) (henabled' : enabled d s.blk i = true) :
    ∃ t, exec i s = .next t ∧ exec i { s with depths := d } = .next { t with depths := d } := by
  cases i
  case symIn v => exact ⟨_, exec_symIn_ready v henabled, exec_symIn_ready v henabled'⟩
  case smpIn x last =>
    obtain ⟨hactive, hroom⟩ := (smpInReady_iff _ _).1 henabled
    obtain ⟨-, hroom'⟩ := (smpInReady_iff _ _).1 henabled'
    exact ⟨_, exec_smpIn_ready x last hactive hroom, exec_smpIn_ready x last hactive hroom'⟩
  case smpOut => exact ⟨_, exec_smpOut_valid henabled, exec_smpOut_valid henabled'⟩
  case synLoad => exact ⟨_, exec_synLoad_enabled henabled, exec_synLoad_enabled henabled'⟩
  case symOut =>
    obtain ⟨x, rest, hso⟩ := List.exists_cons_of_length_pos (of_decide_eq_true henabled)
    exact ⟨_, exec_symOut_cons hso, exec_symOut_cons hso⟩
  all_goals exact ⟨_, rfl, rfl⟩

/-- Settles O56. -/
theorem everyStepAnswersNext : Obligations.EveryStepAnswersNext := by
  refine ⟨fun s => ?_, fun i s d => exec_withDepths⟩
  obtain ⟨t, ht⟩ := step_next s
  exact ⟨t, ht, step_depths ht⟩

end Sys2Proof.Machine

/-! ## Reset (70_reset_and_hazards.md) -/

namespace Sys2Proof.Machine

open Sys2Proof

/-! ### The block after reset moves nothing (R261) -/

/-- Settles O9: no session is active and `so` is empty, so every port and SYN_LOAD wait (`exec_waits`), and the
empty agenda leaves a step SYN_LOAD alone (`stepWaitsAndTakesSynLoad`). -/
theorem resetBlockIsQuiet : Obligations.ResetBlockIsQuiet := by
  have hsymIn (d : Config.Depths) : symInReady d Block.reset = false := rfl
  have hsmpOut : smpOutValid Block.reset = false := rfl
  have hsmpIn (d : Config.Depths) : smpInReady d Block.reset = false := rfl
  have hsymOut : symOutValid Block.reset = false := rfl
  have hsynLoad : synLoadEnabled State.reset.blk = false := rfl
  refine ⟨rfl, hsymIn, hsmpOut, hsmpIn, hsymOut, fun s hs v x last => ?_, ?_⟩
  · have hwaits {i : Instr} (hi : enabled s.depths Block.reset i = false) : exec i s = .next s :=
      exec_waits (by rwa [hs])
    exact ⟨hwaits (hsymIn _), hwaits hsmpOut, hwaits (hsmpIn _), hwaits hsymOut, hwaits hsynLoad⟩
  · obtain ⟨-, hnoLine, -⟩ := stepWaitsAndTakesSynLoad State.reset
    rw [hnoLine rfl, hsynLoad, if_neg Bool.false_ne_true]

/-! ### The configuration after reset is not valid (R262) -/

/-- Reset leaves the tone table all zero. -/
theorem toneAt_reset (k : Nat) : toneAt Block.reset k = 0#32 := by
  rw [toneAt, laneD]
  split
  · exact Vector.getElem_replicate _
  · rfl

/-- BPS and SPS pass START's check after reset, and TONE[0] is the first word that fails it. -/
theorem raises_start_reset : Raises Block.reset .start 3#4 0#8 4 :=
  .cfgFtwRange 0 rfl (by decide) (by decide) (by decide) (by decide) (.inl (toneAt_reset 0))
    fun j hj => absurd hj j.not_lt_zero

/-- Settles O11: the refusal of R233's table (`exec_start_refused`), where no event was set before. -/
theorem startAfterResetIsRefused : Obligations.StartAfterResetIsRefused := by
  intro s hs
  have hidle : s.blk.active = false := by rw [hs]; rfl
  have hevents : s.blk.events = 0#7 := by rw [hs]; rfl
  have hstart := exec_start_refused hidle (hs.symm ▸ raises_start_reset)
  rw [hevents, BitVec.zero_or] at hstart
  exact ⟨_, hstart, errInfoWord_eq _, rfl, rfl⟩

end Sys2Proof.Machine
